-- ==== Sys2Proof/Word.lean ====
section
/-! DEFINITION. The word types of the VISCA packet engine and the enumerated values of its sequencing and
status registers (spec/10_state.md R24, R25, R27). -/

namespace Sys2Proof

/-- A byte: the only addressable unit of the block (R60, R70). -/
abbrev Byte := BitVec 8

/-- Half a byte: an address, a type, a socket, one digit of a numeric field (R10). -/
abbrev Nibble := BitVec 4

/-- `phase` (R24): the place where the block waits. -/
inductive Phase
  /-- no operation in progress; host requests are accepted -/
  | idle
  /-- a packet write has been issued, its count is awaited -/
  | txw
  /-- a one-byte read has been issued, its answer is awaited -/
  | rxw
  /-- a push event has been handed to a handler, its return is awaited -/
  | hdw
deriving DecidableEq, Repr, Inhabited

/-- `mode` (R25): the operation in progress, meaningful while `phase` is not IDLE. -/
inductive Mode
  | recv
  | wait
  | send
  | inq
  | assign
deriving DecidableEq, Repr, Inhabited

/-- `kind` (R27): the category of the most recent terminal event of the block. -/
inductive Kind
  | none
  | reply
  | ack
  | pushIr
  | pushNet
  | undersized
  | error
  | addrEnum
  | broadcast
  | unknown
  | oversized
  | timeout
  | transportErr
  | writeFail
deriving DecidableEq, Repr, Inhabited

end Sys2Proof
end

