-- ==== Sys2Proof/Syntax.lean ====
section
/-! DEFINITION. The instructions: one constructor for each row of spec/opcode_table.json (the packets the block
receives, the outcomes of framing, the packets it sends, the host operations and their abbreviations, the decoder's
shapes), and the raw forms they are decoded from. -/

namespace Sys2Proof

/-- The decoder's four shapes (R210). -/
inductive Shape
  /-- one 4-bit field -/
  | s4
  /-- one 16-bit field -/
  | s16
  /-- two 16-bit fields -/
  | s16x2
  /-- one 32-bit field -/
  | s32
deriving DecidableEq, Repr, Inhabited

/-- A payload item of `SEND` and `INQ` (R98). -/
inductive Item
  /-- a literal byte -/
  | b (v : Byte)
  /-- a 4-bit number: one nibble byte -/
  | n4 (v : BitVec 4)
  /-- a 16-bit number: four nibble bytes -/
  | n16 (v : BitVec 16)
  /-- a 32-bit number: eight nibble bytes -/
  | n32 (v : BitVec 32)
deriving DecidableEq, Repr, Inhabited

/-- One constructor for each row of the table. A packet's constructor carries every field of the packet, those the
classifier does not examine (R108) too, so that no byte of a packet is lost in decoding. -/
inductive Instr
  -- RX: complete received packets, in the precedence order of R117
  /-- `[hdr, 0x5s, payload.., FF]` (R101, R150) -/
  | reply (hdr : Byte) (socket : Nibble) (payload : List Byte)
  /-- `[hdr, 0x4s, FF]` (R102, R151) -/
  | ack (hdr : Byte) (socket : Nibble)
  /-- `[hdr, 07, 7D, 02, irId, key, FF]` (R104, R152) -/
  | pushIr (hdr irId key : Byte)
  /-- `[hdr, 38, FF]` (R105, R153) -/
  | pushNet (hdr : Byte)
  /-- `[FF]` or `[b, FF]` (R154) -/
  | undersized (first : Option Byte)
  /-- `[hdr, 0x6s, code, FF]` (R103, R155) -/
  | error (hdr : Byte) (socket : Nibble) (code : Byte)
  /-- `[88, 30, countPlus1, FF]` (R106, R156) -/
  | addrEnumReply (countPlus1 : Byte)
  /-- `[88, rest.., FF]` of no earlier row (R107, R157) -/
  | broadcast (rest : List Byte)
  /-- `[hdr, rest.., FF]` of no other row (R158) -/
  | unknown (hdr : Byte) (rest : List Byte)
  -- RX-FRAMER: framing ends without a packet
  /-- MAXLEN bytes without a terminator (R134) -/
  | oversized
  /-- the transport answered Empty (R136) -/
  | timeout
  /-- the transport answered Error (R137) -/
  | transportErr
  -- TX: transmitted packets by format
  /-- `[8a, payload.., FF]` (R92) -/
  | txGeneric (addr : Nibble) (payload : List Byte)
  /-- `[8a, 01, op.., FF]` (R94) -/
  | command (addr : Nibble) (op : List Byte)
  /-- `[8a, 09, op.., FF]` and the shape its reply is decoded with (R95, R191) -/
  | inquiry (addr : Nibble) (shape : Shape) (op : List Byte)
  /-- `[88, ADDRSET_PAYLOAD.., FF]` (R96, R231) -/
  | addressSet
  /-- `[8a, 2s, FF]` (R96, R238) -/
  | cancel (addr : Nibble) (socket : Nibble)
  -- TX-ITEM
  /-- the byte `0n` of a numeric argument (R97) -/
  | nibbleByte (n : Nibble)
  -- REQ: host operations by request code (R36, R118)
  | recv
  | wait
  | send (addr : Byte) (items : List Item)
  | inq (addr : Byte) (shape : Shape) (items : List Item)
  | decode (shape : Shape)
  | assign
  | seth (irEn netEn : Bool)
  /-- request code 0 (R36, R281) -/
  | nop
  -- PSEUDO: abbreviations (R116)
  /-- `COMMAND a, b..` -/
  | commandPseudo (addr : Byte) (items : List Item)
  /-- `INQUIRY a, shape, b..` -/
  | inquiryPseudo (addr : Byte) (shape : Shape) (items : List Item)
  /-- `CANCEL a, s` -/
  | cancelPseudo (addr : Byte) (socket : Nibble)
  /-- `ADDRSET` -/
  | addrsetPseudo
  -- RX-DECODE: the decoder's procedure for one shape (R213)
  | shapeS4
  | shapeS16
  | shapeS16x2
  | shapeS32
deriving DecidableEq, Repr

/-- The signals of the host request port (R36). -/
structure ReqSignals where
  /-- `req_op[2:0]` -/
  op : BitVec 3
  /-- `req_addr[7:0]` -/
  addr : Byte := 0
  /-- `req_shape[1:0]` -/
  shape : BitVec 2 := 0
  /-- `req_items` -/
  items : List Item := []
  /-- `req_ir_en` -/
  irEn : Bool := false
  /-- `req_net_en` -/
  netEn : Bool := false
deriving DecidableEq, Repr

/-- How a framing ends without a packet (R134, R136, R137). -/
inductive FramerOutcome
  | bound
  | empty
  | error
deriving DecidableEq, Repr

/-- The names of the script notation's abbreviations (R116). -/
inductive PseudoName
  | command
  | inquiry
  | cancel
  | addrset
deriving DecidableEq, Repr

/-- A line of the script notation that is an abbreviation (R115, R116), its operands by place. -/
structure PseudoLine where
  name : PseudoName
  addr : Byte := 0
  shape : BitVec 2 := 0
  socket : Nibble := 0
  items : List Item := []
deriving DecidableEq, Repr

/-- The raw form of an instruction, one constructor for each `format` of the table. -/
inductive Image
  /-- RX: the bytes of a complete packet, terminator included -/
  | rx (bytes : List Byte)
  /-- RX-FRAMER -/
  | framer (o : FramerOutcome)
  /-- TX: the bytes handed to the transport, with the shape latched beside them (R26; 0 but for an inquiry) -/
  | tx (shape : BitVec 2) (bytes : List Byte)
  /-- TX-ITEM: one payload byte -/
  | item (b : Byte)
  /-- REQ: the request port -/
  | req (r : ReqSignals)
  /-- PSEUDO: a script line -/
  | line (l : PseudoLine)
  /-- RX-DECODE: the shape code -/
  | shape (c : BitVec 2)
deriving DecidableEq, Repr

end Sys2Proof
end

