-- ==== Sys2Proof/Config.lean ====
section
/-! DEFINITION. What an implementation fixes (spec/00_scope.md R5 to R7), the protocol's constants (R6, R250), and
the free values: constants without a body for what the spec leaves unspecified after a `Reset` event (R42) and in
stale buffer bytes (R34). -/

namespace Sys2Proof.Config

/-- `TERM`, the packet terminator (R6). -/
def term : Byte := 0xFF
/-- `DEST_HI`, the high nibble of a destination byte (R6, R93). -/
def destHi : Byte := 0x80
/-- `ADDR_BCAST` (R6). -/
def addrBcast : Byte := 8
/-- `BCAST_HDR`, the header of a broadcast packet (R6). -/
def bcastHdr : Byte := 0x88
/-- `TYPE_CMD`, the first opcode byte of a command (R6). -/
def typeCmd : Byte := 0x01
/-- `TYPE_INQ`, the first opcode byte of an inquiry (R6). -/
def typeInq : Byte := 0x09
/-- `PAYLOAD_OFS`, the index of a reply's first payload byte (R6). -/
def payloadOfs : Nat := 2

/-- success (R250) -/
def codeSuccess : Byte := 0x00
/-- Acknowledge(internal) (R250) -/
def codeAcknowledge : Byte := 0xD0
/-- UnexpectedPacket (R250) -/
def codeUnexpected : Byte := 0xFA
/-- UnknownPacket (R250) -/
def codeUnknown : Byte := 0xFB
/-- UndersizedPacket (R250) -/
def codeUndersized : Byte := 0xFC
/-- OversizedPacket (R250) -/
def codeOversized : Byte := 0xFD
/-- Timeout (R250) -/
def codeTimeout : Byte := 0xFE
/-- Other (R250) -/
def codeOther : Byte := 0xFF

/-- The named parameters the model takes as arguments (R5, R7; log 1). -/
structure Params where
  /-- `MAXLEN` (R5) -/
  maxLen : Nat := 16
  /-- `CODE_TRANSPORT_ERROR` (R7, D14; log 13) -/
  codeTransportError : Byte := 0xFF
  /-- `ADDRSET_PAYLOAD` (R7, R231, D25; log 14) -/
  addrsetPayload : List Byte := [0x30, 0x01]
deriving DecidableEq, Repr

/-- The values this hardware and every test vector take (R5, R7). -/
def Params.default : Params := {}

/-- `MAXLEN >= 3` (R5); a smaller one is refused (R281, U10). -/
abbrev Params.legal (p : Params) : Prop := 3 ≤ p.maxLen

/-- FREE VALUE: byte `i` of `rbuf` after the `n`-th free draw (R42, U6; log 3). -/
opaque freeRbuf (n i : Nat) : Byte
/-- FREE VALUE: byte `i` of `tbuf` after a `Reset` event (R42, U6; log 3). -/
opaque freeTbuf (n i : Nat) : Byte
/-- FREE VALUE: `val0` after a `Reset` event (R42, U6; log 3). -/
opaque freeVal0 (n : Nat) : BitVec 32
/-- FREE VALUE: `val1` after a `Reset` event (R42, U6; log 3). -/
opaque freeVal1 (n : Nat) : BitVec 16
/-- FREE VALUE: `mode` after a `Reset` event (R42, U6; log 3, log 15). -/
opaque freeMode (n : Nat) : Mode
/-- FREE VALUE: `shape_r` after a `Reset` event (R42, U6; log 3). -/
opaque freeShape (n : Nat) : Shape
/-- FREE VALUE: what the status port shows of `rbuf[i]` for `i >= rlen`, `b` being the register's byte (R34, D9, U5;
log 12). -/
opaque staleByte (i : Nat) (b : Byte) : Byte

end Sys2Proof.Config
end

