-- ==== Sys2Proof/Machine/State.lean ====
section
/-! DEFINITION. The state of the block (spec/10_state.md R20 to R33), the port events it has still to be offered and
those it has emitted (R36 to R41), the reasons a step can stop, and the state after reset (R42). Plain data. -/

namespace Sys2Proof.Machine

open Sys2Proof.Config

/-- The answer of the transport to a one-byte read (R38, R61). -/
inductive RxAnswer
  /-- one byte, consumed from the stream -/
  | byte (b : Byte)
  /-- zero bytes available: the transport's own timeout expired -/
  | empty
  /-- a negative result -/
  | error
deriving DecidableEq, Repr

/-- What an agent outside the block will offer at a port: `once`, then `forever` again and again without end. With
nothing in `forever` the agent offers no more after `once`; with something in it the offers never end (R9, R60, R183,
R278; log 4, log 29). -/
structure Feed (α : Type) where
  /-- offered first, each entry once -/
  once : List α := []
  /-- offered after that, over and over -/
  forever : List α := []
deriving DecidableEq, Repr

/-- The feed that offers nothing, ever. -/
def Feed.silent {α : Type} : Feed α := {}

/-- An output event of the block (R37 to R40). -/
inductive Output
  /-- `RxReq`: one byte is asked for -/
  | rxReq
  /-- `TxReq(s)`: the whole packet is handed to the transport -/
  | txReq (bytes : List Byte)
  /-- `IrEvent(cam, ir_id, keycode)`, `cam` in 4-bit two's complement -/
  | irEvent (cam : BitVec 4) (irId key : Byte)
  /-- `NetEvent(cam)` -/
  | netEvent (cam : BitVec 4)
  /-- `Done(kind, result)` -/
  | done (kind : Kind) (result : Byte)
deriving DecidableEq, Repr

/-- An event the block may accept (R8, R141). -/
inductive Event
  /-- `HostReq(op, ..)` (R36) -/
  | hostReq (r : ReqSignals)
  /-- `RxRsp(r)` (R38) -/
  | rxRsp (a : RxAnswer)
  /-- `TxRsp(w)` (R39) -/
  | txRsp (w : Int)
  /-- `HandlerReturn` (R40) -/
  | handlerReturn
  /-- `Reset` (R41) -/
  | reset
deriving DecidableEq, Repr

/-- The state. The first group is the spec's registers; `cfg` holds the build-time parameters; the rest is the model's
own: what the ports will still offer, what they have carried out, and the counter of free values. -/
structure State where
  /-- the build-time parameters (R5, R7, R31; log 1) -/
  cfg : Params
  /-- receive buffer, MAXLEN bytes (R20) -/
  rbuf : List Byte
  /-- receive length, 0 .. MAXLEN (R21) -/
  rlen : Nat
  /-- transmit buffer, MAXLEN bytes (R22) -/
  tbuf : List Byte
  /-- transmit length, 0 .. MAXLEN (R22) -/
  tlen : Nat
  /-- first decoded value (R23) -/
  val0 : BitVec 32
  /-- second decoded value (R23) -/
  val1 : BitVec 16
  /-- sequencing phase (R24) -/
  phase : Phase
  /-- operation in progress (R25) -/
  mode : Mode
  /-- `shape_r`, the shape an `INQ` ends with (R26) -/
  shapeR : Shape
  /-- category of the last terminal event (R27) -/
  kind : Kind
  /-- result code (R28) -/
  result : Byte
  /-- camera count (R29) -/
  camcnt : BitVec 3
  /-- IR handler registered (R30) -/
  irEn : Bool
  /-- topology handler registered (R30) -/
  netEn : Bool
  /-- MODEL: requests the host will present, first one first (R36; log 4) -/
  requests : Feed ReqSignals
  /-- MODEL: the receive stream, answers to the reads to come, unbounded (R60, R61, R35; log 4) -/
  rxStream : Feed RxAnswer
  /-- MODEL: answers to the writes to come (R64; log 4) -/
  txAnswers : Feed Int
  /-- MODEL: handler returns to come, one entry each (R160; log 4) -/
  handlerReturns : Feed Unit
  /-- MODEL: samples of the reset pin, one a step; none offered means low (R41; log 4) -/
  rst : Feed Bool
  /-- MODEL: output events so far, oldest first (log 5) -/
  outputs : List Output
  /-- MODEL: draws of free values so far (log 3) -/
  freeCount : Nat
deriving DecidableEq, Repr

/-- Why the machine stops with a fault. The block itself has no fatal state (R269, R272). -/
inductive Fault
  /-- A byte would be stored at an index of `rbuf` that does not exist (R60, R84). Raised by the framing step in
  states with `rlen >= MAXLEN` in phase RXW, which the invariant of Safety.lean rules out. SAFE: it only stops. -/
  | rbufIndex
deriving DecidableEq, Repr

/-- Why an instruction has no meaning. -/
inductive Refusal
  /-- An instruction without a meaning yet, by its mnemonic; raised by exec's refused arms only. SAFE. -/
  | notModelled (mnemonic : String)
  /-- A payload longer than MAXLEN - 2 (R199, R281, U8), raised by the encoder. SAFE: the spec gives it no meaning. -/
  | payloadTooLong
  /-- MAXLEN below 3 (R5, R281, U10), raised by the step. SAFE: the spec gives it no meaning. -/
  | illegalParameters
deriving DecidableEq, Repr

/-- What an instruction answers. -/
abbrev Answer := Host.Outcome State Fault Refusal

/-- The state after reset (R42, R290), nothing offered yet at the ports (R292). `rbuf`, `tbuf`, `val0`, `val1`, `mode`
and `shapeR` are unspecified in R42; their values here are log 2's. -/
def State.reset : State where
  cfg := Params.default
  rbuf := List.replicate Params.default.maxLen 0x00
  rlen := 0
  tbuf := List.replicate Params.default.maxLen 0x00
  tlen := 0
  val0 := 0
  val1 := 0
  phase := .idle
  mode := .recv
  shapeR := .s4
  kind := .none
  result := 0x00
  camcnt := 0
  irEn := false
  netEn := false
  requests := .silent
  rxStream := .silent
  txAnswers := .silent
  handlerReturns := .silent
  rst := .silent
  outputs := []
  freeCount := 0

end Sys2Proof.Machine
end

