-- ==== Sys2Proof/Machine/Flags.lean ====
section
/-! DEFINITION. The status of the block in place of flags: the numbering of its registers' values (spec/10_state.md
R24, R25, R27), `Success` (R43) and the classes of kinds the sequencer asks for. -/

namespace Sys2Proof.Machine

open Sys2Proof.Config

/-- The 2-bit code of `phase` (R24). -/
def phaseCode : Phase → BitVec 2
  | .idle => 0
  | .txw => 1
  | .rxw => 2
  | .hdw => 3

/-- The 3-bit code of `mode`, the request codes of the operations (R25). -/
def modeCode : Mode → BitVec 3
  | .recv => 1
  | .wait => 2
  | .send => 3
  | .inq => 4
  | .assign => 6

/-- The 4-bit code of `kind` (R27). -/
def kindCode : Kind → BitVec 4
  | .none => 0
  | .reply => 1
  | .ack => 2
  | .pushIr => 3
  | .pushNet => 4
  | .undersized => 5
  | .error => 6
  | .addrEnum => 7
  | .broadcast => 8
  | .unknown => 9
  | .oversized => 10
  | .timeout => 11
  | .transportErr => 12
  | .writeFail => 13

/-- `Success(kind, result)` (R43). -/
def success (k : Kind) (c : Byte) : Bool :=
  c == 0x00 && (k == .reply || k == .addrEnum || k == .broadcast)

/-- The non-Reply successes an inquiry turns into UnexpectedPacket (R184). -/
def inqUnexpected (k : Kind) (c : Byte) : Bool :=
  c == codeSuccess && (k == .addrEnum || k == .broadcast)

/-- The successes an enumeration turns into UnexpectedPacket (R233). -/
def assignUnexpected (k : Kind) (c : Byte) : Bool :=
  c == codeSuccess && (k == .reply || k == .broadcast)

end Sys2Proof.Machine
end

