-- ==== Sys2Proof/Machine/Operands.lean ====
section
/-! DEFINITION. Operand forms: nibbles of a byte, the two buffers' index spaces, payload items and their expansion
(spec/30_encoding.md R97, R98; spec/43_encoder.md R192, R200), reply fields (spec/44_decoder.md R210 to R212), the
camera index (spec/41_classifier.md R152). -/

namespace Sys2Proof.Machine

open Sys2Proof.Config

/-- `b[7:4]` (R10). -/
def hiNib (b : Byte) : Nibble := b.extractLsb' 4 4

/-- `b[3:0]` (R10). -/
def loNib (b : Byte) : Nibble := b.extractLsb' 0 4

/-- `{h, l}` (R11). -/
def joinNib (h l : Nibble) : Byte := h ++ l

/-- The byte at an index of a buffer (R60); index spaces end at MAXLEN - 1, and no rule reads past them (R84). -/
def byteAt (buf : List Byte) (i : Nat) : Byte := buf.getD i 0

/-- No byte of the sequence is the terminator (R90). -/
def noTerm (bs : List Byte) : Bool := bs.all (· ≠ term)

/-- The nibble bytes of a value of `4 * n` bits, most significant nibble first, high nibbles 0 (R66, R97, R200). -/
def nibbleBytes (n : Nat) (v : Nat) : List Byte :=
  (List.range n).map fun k => BitVec.ofNat 8 ((v >>> (4 * (n - 1 - k))) % 16)

/-- The bytes of one payload item (R98). -/
def expandItem : Item → List Byte
  | .b v => [v]
  | .n4 v => nibbleBytes 1 v.toNat
  | .n16 v => nibbleBytes 4 v.toNat
  | .n32 v => nibbleBytes 8 v.toNat

/-- `Expand(items)` (R98). -/
def expand (items : List Item) : List Byte := items.flatMap expandItem

/-- The destination byte `0x80 | (addr & 0x0F)` (R93, R200). -/
def destByte (addr : Byte) : Byte := destHi ||| (addr &&& 0x0F)

/-- `Encode(addr, p)` (R192). -/
def encodePacket (addr : Byte) (p : List Byte) : List Byte := destByte addr :: (p ++ [term])

/-- The request code of a shape (R210). -/
def shapeCode : Shape → BitVec 2
  | .s4 => 0
  | .s16 => 1
  | .s16x2 => 2
  | .s32 => 3

/-- The shape of a request code (R210). -/
def shapeOfCode (c : BitVec 2) : Shape :=
  if c = 0 then .s4 else if c = 1 then .s16 else if c = 2 then .s16x2 else .s32

/-- `N`, the nibble bytes of a shape (R210). -/
def shapeNibbles : Shape → Nat
  | .s4 => 1
  | .s16 => 4
  | .s16x2 => 8
  | .s32 => 8

/-- `Field(i, n)` over a buffer (R212). -/
def fieldAt (buf : List Byte) (i n : Nat) : Nat :=
  ((List.range n).map fun k => (loNib (byteAt buf (i + k))).toNat <<< (4 * (n - 1 - k))).sum

/-- The camera index `(byte[0] >> 4) - 8`, an integer in -8 .. 7 (R152, R165, D15). -/
def camIndex (hdr : Byte) : Int := ((hdr >>> 4).toNat : Int) - 8

/-- The camera index on the 4-bit ports, in two's complement (R40, R152). -/
def camPort (hdr : Byte) : BitVec 4 := BitVec.ofInt 4 (camIndex hdr)

/-- Bytes as literal payload items: what a host that splits its numbers itself sends (R98). -/
def literalItems (bs : List Byte) : List Item := bs.map .b

end Sys2Proof.Machine
end

