-- ==== Sys2Proof/Machine/Ops.lean ====
section
/-! DEFINITION. The named operations every instruction is made of: the framing step's pieces (spec/40_framer.md R131,
R132, R139, R140), the sequencer (spec/42_handshake.md R181, R184; spec/45_control.md R233), the encoder's building and
write (spec/43_encoder.md R194 to R197), the decoder (spec/44_decoder.md R213), the delivery of a push event and the
return from it (spec/60_exceptions.md R264, R265), reset (spec/10_state.md R42). -/

namespace Sys2Proof.Machine

open Sys2Proof.Config

/-- `emit E` (R12): the event joins those already emitted. -/
def emit (o : Output) (s : State) : State := { s with outputs := s.outputs ++ [o] }

/-- `StartFrame()` (R131). -/
def startFrame (s : State) : State := emit .rxReq { s with rlen := 0, phase := .rxw }

/-- `Finish()` (R140). -/
def finish (s : State) : State := emit (.done s.kind s.result) { s with phase := .idle }

/-- `kind <- k ; result <- c` (R27, R28). -/
def latch (k : Kind) (c : Byte) (s : State) : State := { s with kind := k, result := c }

/-- The packet being framed or last framed, `rbuf[0 .. rlen-1]` (R20, R21). -/
def rxPacket (s : State) : List Byte := s.rbuf.take s.rlen

/-- `rbuf[rlen] <- b ; rlen <- rlen + 1` (R132). -/
def storeByte (b : Byte) (s : State) : State :=
  { s with rbuf := s.rbuf.set s.rlen b, rlen := s.rlen + 1 }

/-- What a successful decode writes (R213, R214): `val0`, for two fields `val1` too. -/
def writeFields (sh : Shape) (s : State) : State :=
  match sh with
  | .s4 => { s with val0 := BitVec.ofNat 32 (fieldAt s.rbuf payloadOfs 1) }
  | .s16 => { s with val0 := BitVec.ofNat 32 (fieldAt s.rbuf payloadOfs 4) }
  | .s16x2 =>
    { s with val0 := BitVec.ofNat 32 (fieldAt s.rbuf payloadOfs 4),
             val1 := BitVec.ofNat 16 (fieldAt s.rbuf (payloadOfs + 4) 4) }
  | .s32 => { s with val0 := BitVec.ofNat 32 (fieldAt s.rbuf payloadOfs 8) }

/-- The packet in `rbuf` can be decoded with the shape: a Reply of exactly the shape's length (R217, R218). -/
def fitsShape (sh : Shape) (s : State) : Bool := s.kind == .reply && s.rlen == shapeNibbles sh + 3

/-- `Decode(s)` (R213). -/
def decodeReply (sh : Shape) (s : State) : State :=
  if fitsShape sh s then { writeFields sh s with result := codeSuccess }
  else { s with result := codeUnexpected }

/-- `PostInq()` (R184). -/
def postInq (s : State) : State :=
  if s.kind = .reply then decodeReply s.shapeR s
  else if inqUnexpected s.kind s.result then { s with result := codeUnexpected }
  else s

/-- `PostAssign()` (R233). -/
def postAssign (s : State) : State :=
  if assignUnexpected s.kind s.result then { s with result := codeUnexpected } else s

/-- The post-check of the operation in progress (R181). -/
def postCheck (s : State) : State :=
  match s.mode with
  | .recv => s
  | .wait => s
  | .send => s
  | .inq => postInq s
  | .assign => postAssign s

/-- `Sequence()` (R181): the handshake loop tests the kind, not the code (R182), and has no bound (R183). -/
def sequence (s : State) : State :=
  if s.mode = .recv then finish s
  else if s.kind = .ack then startFrame s
  else finish (postCheck s)

/-- `Terminal(k, c)` (R139): how every outcome of a framing is taken, successes and failures alike (R269). -/
def terminal (k : Kind) (c : Byte) (s : State) : State := sequence (latch k c s)

/-- Delivery of a push event (R159, R160, R264): with its handler registered the event goes out and the block waits in
HDW; otherwise the packet is dropped and the next is framed. Neither `kind` nor `result` is written. -/
def deliverPush (enabled : Bool) (o : Output) (s : State) : State :=
  if enabled then emit o { s with phase := .hdw } else startFrame s

/-- The return of a handler (R160, R265), accepted in phase HDW only (R282). -/
def handlerReturned (s : State) : State := if s.phase = .hdw then startFrame s else s

/-- One byte of the packet under construction goes into `tbuf` (R194, R97). -/
def putByte (s : State) (b : Byte) : State :=
  { s with tbuf := s.tbuf.set s.tlen b, tlen := s.tlen + 1 }

/-- The first half of `BuildAndWrite` (R194): `tbuf` is filled from index 0, `tlen` ends as the packet's length. -/
def buildPacket (addr : Byte) (p : List Byte) (s : State) : State :=
  (encodePacket addr p).foldl putByte { s with tlen := 0 }

/-- The second half of `BuildAndWrite` (R195): the packet is handed over in one call. -/
def issueWrite (s : State) : State := emit (.txReq (s.tbuf.take s.tlen)) { s with phase := .txw }

/-- `BuildAndWrite(addr, p)` (R194, R195), refused for a payload longer than MAXLEN - 2 (R199). -/
def buildAndWrite (addr : Byte) (p : List Byte) (s : State) : Answer :=
  if p.length + 2 ≤ s.cfg.maxLen then .next (issueWrite (buildPacket addr p s))
  else .refused .payloadTooLong

/-- A request is accepted in phase IDLE only; at any other time it has no effect (R36, R282). -/
def whenIdle (s : State) (a : Answer) : Answer := if s.phase = .idle then a else .next s

/-- A read answer is accepted in phase RXW only (R38, R282). -/
def whenReading (s : State) (a : Answer) : Answer := if s.phase = .rxw then a else .next s

/-- The request that sends a packet and waits for its terminal answer: `SEND` (R190). -/
def requestSend (addr : Byte) (p : List Byte) (s : State) : Answer :=
  whenIdle s (buildAndWrite addr p { s with mode := .send })

/-- As `requestSend`, with the shape latched for the decode at the end: `INQ` (R191). -/
def requestInquiry (addr : Byte) (sh : Shape) (p : List Byte) (s : State) : Answer :=
  whenIdle s (buildAndWrite addr p { s with mode := .inq, shapeR := sh })

/-- The enumeration broadcast: `ASSIGN` (R230, R231). -/
def requestAssign (s : State) : Answer :=
  whenIdle s (buildAndWrite addrBcast s.cfg.addrsetPayload { s with mode := .assign })

/-- `TxRsp(w)` (R196, R197): fewer bytes than requested, a negative count among them, is WRITE_FAIL; otherwise the
handshake begins. Accepted in phase TXW only (R282). -/
def writeAnswered (w : Int) (s : State) : State :=
  if s.phase = .txw then
    if w < (s.tlen : Int) then finish (latch .writeFail codeOther s) else startFrame s
  else s

/-- The event `Reset` (R42, R290, R291): the registers R42 lists at their values, the registers it leaves unspecified
at free values (log 3). No `Done`; the parameters, the streams and what was already emitted are not touched. -/
def resetBlock (s : State) : State :=
  { s with
    rbuf := (List.range s.cfg.maxLen).map (freeRbuf s.freeCount)
    rlen := 0
    tbuf := (List.range s.cfg.maxLen).map (freeTbuf s.freeCount)
    tlen := 0
    val0 := freeVal0 s.freeCount
    val1 := freeVal1 s.freeCount
    phase := .idle
    mode := freeMode s.freeCount
    shapeR := freeShape s.freeCount
    kind := .none
    result := 0x00
    camcnt := 0
    irEn := false
    netEn := false
    freeCount := s.freeCount + 1 }

end Sys2Proof.Machine
end

