-- ==== Sys2Proof/Machine/Receive.lean ====
section
/-! DEFINITION. The classifier's actions (spec/41_classifier.md R150 to R158), the rows of format RX, and the outcomes
of framing (spec/40_framer.md R134, R136, R137), the rows of format RX-FRAMER. A classification is taken in the step
that stored the terminator, with the packet in `rbuf[0 .. rlen-1]` (R133). -/

namespace Sys2Proof.Machine

open Sys2Proof.Config

/-- REPLY (R150): the packet stays in `rbuf` for the decoder. -/
def execReply (_hdr : Byte) (_socket : Nibble) (_payload : List Byte) (s : State) : Answer :=
  .next (terminal .reply codeSuccess s)

/-- ACK (R151): terminal for `RECV`, absorbed in every other mode (R181). -/
def execAck (_hdr : Byte) (_socket : Nibble) (s : State) : Answer := .next (terminal .ack codeAcknowledge s)

/-- PUSH_IR (R152). -/
def execPushIr (hdr irId key : Byte) (s : State) : Answer :=
  .next (deliverPush s.irEn (.irEvent (camPort hdr) irId key) s)

/-- PUSH_NET (R153): `camcnt` is not changed. -/
def execPushNet (hdr : Byte) (s : State) : Answer := .next (deliverPush s.netEn (.netEvent (camPort hdr)) s)

/-- UNDERSIZED (R154). -/
def execUndersized (_first : Option Byte) (s : State) : Answer := .next (terminal .undersized codeUndersized s)

/-- ERROR (R155): the camera's code is the result, not wrapped. -/
def execError (_hdr : Byte) (_socket : Nibble) (code : Byte) (s : State) : Answer :=
  .next (terminal .error code s)

/-- ADDR_ENUM_REPLY (R156): a count of 1 to 7 is recorded whatever the mode (R44); any other is UNKNOWN and `camcnt`
keeps its value (C3). -/
def execAddrEnumReply (n : Byte) (s : State) : Answer :=
  if 0x02 ≤ n ∧ n ≤ 0x08 then
    .next (terminal .addrEnum codeSuccess { s with camcnt := BitVec.ofNat 3 (n.toNat - 1) })
  else .next (terminal .unknown codeUnknown s)

/-- BROADCAST (R157). -/
def execBroadcast (_rest : List Byte) (s : State) : Answer := .next (terminal .broadcast codeSuccess s)

/-- UNKNOWN (R158). -/
def execUnknown (_hdr : Byte) (_rest : List Byte) (s : State) : Answer :=
  .next (terminal .unknown codeUnknown s)

/-- OVERSIZED (R134): MAXLEN bytes stored, none of them the terminator. -/
def execOversized (s : State) : Answer := .next (terminal .oversized codeOversized s)

/-- TIMEOUT (R136): accepted in phase RXW only. -/
def execTimeout (s : State) : Answer := whenReading s (.next (terminal .timeout codeTimeout s))

/-- TRANSPORT_ERR (R137): accepted in phase RXW only; the code is the parameter (R7). -/
def execTransportErr (s : State) : Answer :=
  whenReading s (.next (terminal .transportErr s.cfg.codeTransportError s))

end Sys2Proof.Machine
end

