-- ==== Sys2Proof/Machine/Requests.lean ====
section
/-! DEFINITION. The host operations: the rows of format REQ (spec/30_encoding.md R118). Each is accepted in phase IDLE
only (spec/10_state.md R36). -/

namespace Sys2Proof.Machine

open Sys2Proof.Config

/-- `RECV`: one framing invocation (R130). -/
def execRecv (s : State) : Answer := whenIdle s (.next (startFrame { s with mode := .recv }))

/-- `WAIT`: the handshake loop on its own (R180). -/
def execWait (s : State) : Answer := whenIdle s (.next (startFrame { s with mode := .wait }))

/-- `SEND addr, items` (R190). -/
def execSend (addr : Byte) (items : List Item) (s : State) : Answer := requestSend addr (expand items) s

/-- `INQ addr, shape, items` (R191). -/
def execInq (addr : Byte) (sh : Shape) (items : List Item) (s : State) : Answer :=
  requestInquiry addr sh (expand items) s

/-- `DECODE shape` (R216): completes in the step that accepts it; the phase stays IDLE. -/
def execDecode (sh : Shape) (s : State) : Answer := whenIdle s (.next (finish (decodeReply sh s)))

/-- `ASSIGN` (R230). -/
def execAssign (s : State) : Answer := requestAssign s

/-- `SETH ir_en, net_en` (R235): completes in the step that accepts it; `kind` and `result` are unchanged. -/
def execSeth (ir net : Bool) (s : State) : Answer :=
  whenIdle s (.next (finish { s with irEn := ir, netEn := net }))

/-- Request code 0 is no operation and is ignored (R36, R281): no register changes and no `Done` follows (log 26). -/
def execNop (s : State) : Answer := .next s

end Sys2Proof.Machine
end

