-- ==== Sys2Proof/Machine/Shapes.lean ====
section
/-! DEFINITION. The decoder's procedure for each shape (spec/44_decoder.md R210, R213), the rows of format RX-DECODE.
`DECODE` and the end of an `INQ` run them; neither the phase nor a port is touched (log 11). -/

namespace Sys2Proof.Machine

/-- SHAPE_S4 (R213): one 4-bit field, packet length 4. -/
def execShapeS4 (s : State) : Answer := .next (decodeReply .s4 s)

/-- SHAPE_S16 (R213): one 16-bit field, packet length 7. -/
def execShapeS16 (s : State) : Answer := .next (decodeReply .s16 s)

/-- SHAPE_S16x2 (R213): two 16-bit fields, packet length 11. -/
def execShapeS16x2 (s : State) : Answer := .next (decodeReply .s16x2 s)

/-- SHAPE_S32 (R213): one 32-bit field, packet length 11. -/
def execShapeS32 (s : State) : Answer := .next (decodeReply .s32 s)

end Sys2Proof.Machine
end

