-- ==== Sys2Proof/WellFormed.lean ====
section
/-! DEFINITION. Well-formed instructions: those some raw form stands for. A received packet has no terminator but its
last byte and at most MAXLEN bytes (spec/30_encoding.md R90); a Broadcast or an Unknown packet is one that no earlier
row of the classification map (R117, in its mask and match form) takes; a transmitted packet fits MAXLEN (R92) and is
named by the most particular of its formats (R94 to R96). -/

namespace Sys2Proof

open Sys2Proof.Config Sys2Proof.Machine

/-- The length condition of a row of the classification map (R117). -/
inductive LenCond
  | atLeast (n : Nat)
  | exactly (n : Nat)
  | below (n : Nat)
deriving DecidableEq, Repr

/-- A length meets a length condition. -/
def LenCond.holds : LenCond → Nat → Bool
  | .atLeast n, l => n ≤ l
  | .exactly n, l => l == n
  | .below n, l => l < n

/-- A row of the classification map in mask and match form (R117). -/
structure RxRow where
  len : LenCond
  mask : BitVec 32
  value : BitVec 32
deriving DecidableEq, Repr

/-- The first four bytes of a packet as a number, byte 0 in bits 31:24 (R117). -/
def firstFour (p : List Byte) : BitVec 32 :=
  byteAt p 0 ++ byteAt p 1 ++ byteAt p 2 ++ byteAt p 3

/-- The row takes the packet. -/
def RxRow.takes (r : RxRow) (p : List Byte) : Bool :=
  r.len.holds p.length && (firstFour p &&& r.mask) == r.value

/-- The classification map's rows 1 to 9 in precedence order (R117 and the table's `priority`, `mask`, `match`,
`length`). -/
def rxRows : List RxRow :=
  [ ⟨.atLeast 3, 0x00F00000, 0x00500000⟩,
    ⟨.exactly 3, 0x00F00000, 0x00400000⟩,
    ⟨.exactly 7, 0x00FFFFFF, 0x00077D02⟩,
    ⟨.exactly 3, 0x00FF0000, 0x00380000⟩,
    ⟨.below 3, 0x00000000, 0x00000000⟩,
    ⟨.exactly 4, 0x00F00000, 0x00600000⟩,
    ⟨.exactly 4, 0xFFFF0000, 0x88300000⟩,
    ⟨.atLeast 3, 0xFF000000, 0x88000000⟩,
    ⟨.atLeast 3, 0x00000000, 0x00000000⟩ ]

/-- One of the first `n` rows takes the packet. -/
def takenBefore (n : Nat) (p : List Byte) : Bool := (rxRows.take n).any (·.takes p)

/-- A payload that fits a transmitted packet (R92, R199). -/
def payloadFits (prm : Params) (p : List Byte) : Bool := p.length + 2 ≤ prm.maxLen

/-- The bytes are those of the address-set packet (R96, R231). -/
def isAddressSet (prm : Params) (addr : Nibble) (p : List Byte) : Bool :=
  addr == 8#4 && p == prm.addrsetPayload

/-- A payload of none of the particular formats: not a command, not an inquiry, not a cancel (R94, R95, R96). -/
def plainPayload : List Byte → Bool
  | [] => true
  | b :: bs => b != typeCmd && b != typeInq && !(bs == [] && hiNib b == 2#4)

/-- The instruction is the reading of some raw form under the parameters. -/
def wellFormed (prm : Params) : Instr → Bool
  | .reply hdr _ payload => hdr != term && noTerm payload && payload.length + 3 ≤ prm.maxLen
  | .ack hdr _ => hdr != term
  | .pushIr hdr irId key => noTerm [hdr, irId, key] && 7 ≤ prm.maxLen
  | .pushNet hdr => hdr != term
  | .undersized first => first != some term
  | .error hdr _ code => noTerm [hdr, code] && 4 ≤ prm.maxLen
  | .addrEnumReply n => n != term && 4 ≤ prm.maxLen
  | .broadcast rest =>
    noTerm rest && rest.length + 2 ≤ prm.maxLen && !takenBefore 7 (bcastHdr :: (rest ++ [term]))
  | .unknown hdr rest =>
    noTerm (hdr :: rest) && rest.length + 2 ≤ prm.maxLen && !takenBefore 8 (hdr :: (rest ++ [term]))
  | .txGeneric a p => payloadFits prm p && plainPayload p && !isAddressSet prm a p
  | .command a op => payloadFits prm (typeCmd :: op) && !isAddressSet prm a (typeCmd :: op)
  | .inquiry a _ op => payloadFits prm (typeInq :: op) && !isAddressSet prm a (typeInq :: op)
  | .addressSet => payloadFits prm prm.addrsetPayload
  | .cancel a s => payloadFits prm [joinNib 2#4 s] && !isAddressSet prm a [joinNib 2#4 s]
  | .send _ items => payloadFits prm (expand items)
  | .inq _ _ items => payloadFits prm (expand items)
  | .commandPseudo _ items => payloadFits prm (expand (.b typeCmd :: items))
  | .inquiryPseudo _ _ items => payloadFits prm (expand (.b typeInq :: items))
  | .cancelPseudo _ _ => payloadFits prm [joinNib 2#4 0#4]
  | .addrsetPseudo => payloadFits prm [0x30, 0x01]
  | .oversized => true
  | .timeout => true
  | .transportErr => true
  | .nibbleByte _ => true
  | .recv => true
  | .wait => true
  | .decode _ => true
  | .assign => payloadFits prm prm.addrsetPayload
  | .seth _ _ => true
  | .nop => true
  | .shapeS4 => true
  | .shapeS16 => true
  | .shapeS16x2 => true
  | .shapeS32 => true

end Sys2Proof
end

