-- ==== Sys2Proof/Decode.lean ====
section
/-! DEFINITION. Decoding: the request port's code (spec/10_state.md R36), the packet classifier as a pure function
(spec/41_classifier.md R161, R164), the formats of a transmitted packet (spec/30_encoding.md R92 to R97), shape codes
and script lines; the encoder, its inverse; and the words of spec/opcode_table.json. -/

namespace Sys2Proof

open Sys2Proof.Config Sys2Proof.Machine

/-- Why a raw form is no instruction. -/
inductive DecodeError
  /-- no byte at all (R90) -/
  | emptyPacket
  /-- the last byte is not the terminator (R90) -/
  | noTerminator
  /-- a terminator before the last byte of a received packet (R90) -/
  | terminatorInside
  /-- more than MAXLEN bytes (R90, R92) -/
  | packetTooLong
  /-- a transmitted packet whose first byte's high nibble is not 8 (R93) -/
  | badDestination
  /-- a transmitted packet of one byte (R92) -/
  | packetTooShort
  /-- an item byte whose high nibble is not 0 (R97) -/
  | notANibbleByte
deriving DecidableEq, Repr

/-- Bytes `k .. L-2` of a packet: everything between index `k` and the terminator (R101). -/
def packetBody (p : List Byte) (k : Nat) : List Byte := p.dropLast.drop k

/-- `ClassifyFn` (R161, R164): the nine rules in their order, first match wins. Total on every byte sequence. -/
def classify (p : List Byte) : Instr :=
  if 3 ≤ p.length ∧ hiNib (byteAt p 1) = 5#4 then
    .reply (byteAt p 0) (loNib (byteAt p 1)) (packetBody p 2)
  else if p.length = 3 ∧ hiNib (byteAt p 1) = 4#4 then
    .ack (byteAt p 0) (loNib (byteAt p 1))
  else if p.length = 7 ∧ byteAt p 1 = 0x07 ∧ byteAt p 2 = 0x7D ∧ byteAt p 3 = 0x02 then
    .pushIr (byteAt p 0) (byteAt p 4) (byteAt p 5)
  else if p.length = 3 ∧ byteAt p 1 = 0x38 then
    .pushNet (byteAt p 0)
  else if p.length < 3 then
    .undersized p.dropLast.head?
  else if p.length = 4 ∧ hiNib (byteAt p 1) = 6#4 then
    .error (byteAt p 0) (loNib (byteAt p 1)) (byteAt p 2)
  else if p.length = 4 ∧ byteAt p 0 = bcastHdr ∧ byteAt p 1 = 0x30 then
    .addrEnumReply (byteAt p 2)
  else if byteAt p 0 = bcastHdr then
    .broadcast (packetBody p 1)
  else
    .unknown (byteAt p 0) (packetBody p 1)

/-- A received packet (R90) and its classification. -/
def decodeRx (prm : Params) (p : List Byte) : Except DecodeError Instr :=
  if p = [] then .error .emptyPacket
  else if p.getLast? ≠ some term then .error .noTerminator
  else if noTerm p.dropLast = false then .error .terminatorInside
  else if prm.maxLen < p.length then .error .packetTooLong
  else .ok (classify p)

/-- The format of a transmitted packet with destination nibble `a` and payload `p` (R92, R94, R95, R96). -/
def txFormat (prm : Params) (shape : BitVec 2) (a : Nibble) (p : List Byte) : Instr :=
  if isAddressSet prm a p then .addressSet
  else match p with
    | [] => .txGeneric a []
    | b :: op =>
      if b = typeCmd then .command a op
      else if b = typeInq then .inquiry a (shapeOfCode shape) op
      else if op = [] ∧ hiNib b = 2#4 then .cancel a (loNib b)
      else .txGeneric a (b :: op)

/-- A transmitted packet (R92, R93). A terminator inside the payload is sent as supplied (R198). -/
def decodeTx (prm : Params) (shape : BitVec 2) (p : List Byte) : Except DecodeError Instr :=
  match p with
  | [] => .error .emptyPacket
  | d :: rest =>
    if hiNib d ≠ 8#4 then .error .badDestination
    else if rest = [] then .error .packetTooShort
    else if rest.getLast? ≠ some term then .error .noTerminator
    else if prm.maxLen < p.length then .error .packetTooLong
    else .ok (txFormat prm shape (loNib d) rest.dropLast)

/-- The operation a request code names, with the operands it uses (R36, R118). Every code has a meaning; code 0 is no
operation. -/
def decodeReq (r : ReqSignals) : Instr :=
  if r.op = 1#3 then .recv
  else if r.op = 2#3 then .wait
  else if r.op = 3#3 then .send r.addr r.items
  else if r.op = 4#3 then .inq r.addr (shapeOfCode r.shape) r.items
  else if r.op = 5#3 then .decode (shapeOfCode r.shape)
  else if r.op = 6#3 then .assign
  else if r.op = 7#3 then .seth r.irEn r.netEn
  else .nop

/-- A script line that is an abbreviation (R116). -/
def decodeLine (l : PseudoLine) : Instr :=
  match l.name with
  | .command => .commandPseudo l.addr l.items
  | .inquiry => .inquiryPseudo l.addr (shapeOfCode l.shape) l.items
  | .cancel => .cancelPseudo l.addr l.socket
  | .addrset => .addrsetPseudo

/-- The decoder's row of a shape (R210, R213). -/
def shapeInstr : Shape → Instr
  | .s4 => .shapeS4
  | .s16 => .shapeS16
  | .s16x2 => .shapeS16x2
  | .s32 => .shapeS32

/-- How a framing that ends without a packet is named (R134, R136, R137). -/
def decodeFramer : FramerOutcome → Instr
  | .bound => .oversized
  | .empty => .timeout
  | .error => .transportErr

/-- The instruction a raw form stands for, or the name of what is wrong with it. -/
def decode (prm : Params) : Image → Except DecodeError Instr
  | .rx p => decodeRx prm p
  | .framer o => .ok (decodeFramer o)
  | .tx s p => decodeTx prm s p
  | .item b => if hiNib b = 0#4 then .ok (.nibbleByte (loNib b)) else .error .notANibbleByte
  | .req r => .ok (decodeReq r)
  | .line l => .ok (decodeLine l)
  | .shape c => .ok (shapeInstr (shapeOfCode c))

/-- The raw form of a well-formed instruction, from the formats of spec/30_encoding.md and the request codes. -/
def encode (prm : Params) : Instr → Image
  | .reply hdr socket payload => .rx (hdr :: joinNib 5#4 socket :: (payload ++ [term]))
  | .ack hdr socket => .rx [hdr, joinNib 4#4 socket, term]
  | .pushIr hdr irId key => .rx [hdr, 0x07, 0x7D, 0x02, irId, key, term]
  | .pushNet hdr => .rx [hdr, 0x38, term]
  | .undersized first => .rx (first.toList ++ [term])
  | .error hdr socket code => .rx [hdr, joinNib 6#4 socket, code, term]
  | .addrEnumReply n => .rx [bcastHdr, 0x30, n, term]
  | .broadcast rest => .rx (bcastHdr :: (rest ++ [term]))
  | .unknown hdr rest => .rx (hdr :: (rest ++ [term]))
  | .oversized => .framer .bound
  | .timeout => .framer .empty
  | .transportErr => .framer .error
  | .txGeneric a p => .tx 0 (joinNib 8#4 a :: (p ++ [term]))
  | .command a op => .tx 0 (joinNib 8#4 a :: typeCmd :: (op ++ [term]))
  | .inquiry a sh op => .tx (shapeCode sh) (joinNib 8#4 a :: typeInq :: (op ++ [term]))
  | .addressSet => .tx 0 (bcastHdr :: (prm.addrsetPayload ++ [term]))
  | .cancel a s => .tx 0 [joinNib 8#4 a, joinNib 2#4 s, term]
  | .nibbleByte n => .item (joinNib 0#4 n)
  | .recv => .req { op := 1#3 }
  | .wait => .req { op := 2#3 }
  | .send addr items => .req { op := 3#3, addr := addr, items := items }
  | .inq addr sh items => .req { op := 4#3, addr := addr, shape := shapeCode sh, items := items }
  | .decode sh => .req { op := 5#3, shape := shapeCode sh }
  | .assign => .req { op := 6#3 }
  | .seth i n => .req { op := 7#3, irEn := i, netEn := n }
  | .nop => .req { op := 0#3 }
  | .commandPseudo addr items => .line { name := .command, addr := addr, items := items }
  | .inquiryPseudo addr sh items =>
    .line { name := .inquiry, addr := addr, shape := shapeCode sh, items := items }
  | .cancelPseudo addr s => .line { name := .cancel, addr := addr, socket := s }
  | .addrsetPseudo => .line { name := .addrset }
  | .shapeS4 => .shape 0
  | .shapeS16 => .shape 1
  | .shapeS16x2 => .shape 2
  | .shapeS32 => .shape 3

/-- A nibble as an 8-bit address operand. -/
def addrOperand (a : Nibble) : Byte := a.setWidth 8

/-- The request that makes the block do what a row stands for: a host operation's own request; the request that sends
a transmitted packet (the rows' notes: COMMAND, CANCEL and the generic format with SEND, INQUIRY with INQ, ADDRESS_SET
with ASSIGN); an abbreviation's expansion (R116); for a nibble byte and a shape the smallest request that uses it.
Received packets and framing outcomes are not requested. -/
def requestOf : Instr → Option ReqSignals
  | .recv => some { op := 1#3 }
  | .wait => some { op := 2#3 }
  | .send addr items => some { op := 3#3, addr := addr, items := items }
  | .inq addr sh items => some { op := 4#3, addr := addr, shape := shapeCode sh, items := items }
  | .decode sh => some { op := 5#3, shape := shapeCode sh }
  | .assign => some { op := 6#3 }
  | .seth i n => some { op := 7#3, irEn := i, netEn := n }
  | .nop => some { op := 0#3 }
  | .txGeneric a p => some { op := 3#3, addr := addrOperand a, items := literalItems p }
  | .command a op => some { op := 3#3, addr := addrOperand a, items := literalItems (typeCmd :: op) }
  | .inquiry a sh op =>
    some { op := 4#3, addr := addrOperand a, shape := shapeCode sh, items := literalItems (typeInq :: op) }
  | .addressSet => some { op := 6#3 }
  | .cancel a s => some { op := 3#3, addr := addrOperand a, items := literalItems [joinNib 2#4 s] }
  | .nibbleByte n => some { op := 3#3, items := [.n4 n] }
  | .commandPseudo addr items => some { op := 3#3, addr := addr, items := .b typeCmd :: items }
  | .inquiryPseudo addr sh items =>
    some { op := 4#3, addr := addr, shape := shapeCode sh, items := .b typeInq :: items }
  | .cancelPseudo addr s => some { op := 3#3, addr := addr, items := literalItems [joinNib 2#4 s] }
  | .addrsetPseudo => some { op := 3#3, addr := addrBcast, items := literalItems [0x30, 0x01] }
  | .shapeS4 => some { op := 5#3, shape := 0 }
  | .shapeS16 => some { op := 5#3, shape := 1 }
  | .shapeS16x2 => some { op := 5#3, shape := 2 }
  | .shapeS32 => some { op := 5#3, shape := 3 }
  | .reply _ _ _ => none
  | .ack _ _ => none
  | .pushIr _ _ _ => none
  | .pushNet _ => none
  | .undersized _ => none
  | .error _ _ _ => none
  | .addrEnumReply _ => none
  | .broadcast _ => none
  | .unknown _ _ => none
  | .oversized => none
  | .timeout => none
  | .transportErr => none

/-- Byte `i` of a table word, byte 0 its least significant. -/
def tableByte (w i : Nat) : Byte := BitVec.ofNat 8 (w >>> (8 * i))

/-- The received packet a 32-bit table word shows the first four bytes of (byte 0 in bits 31:24, R117). The word has
neither the length nor, in most rows, the terminator, which are conditions of the row beside it: a packet ends at the
first terminator among the four bytes, and otherwise is completed to the length of the row whose fixed bytes it shows,
its missing bytes 0, its last byte the terminator (log 8). -/
def tableRxPacket (w : Nat) : List Byte :=
  let b0 := tableByte w 3
  let b1 := tableByte w 2
  let b2 := tableByte w 1
  let b3 := tableByte w 0
  if b0 = term then [b0]
  else if b1 = term then [b0, b1]
  else if hiNib b1 = 4#4 ∨ b1 = 0x38 ∨ b2 = term then [b0, b1, term]
  else if b1 = 0x07 ∧ b2 = 0x7D ∧ b3 = 0x02 then [b0, b1, b2, b3, 0, 0, term]
  else if hiNib b1 = 6#4 ∨ (b0 = bcastHdr ∧ b1 = 0x30) ∨ b3 = term then [b0, b1, b2, term]
  else [b0, b1, b2, b3, term]

/-- The transmitted packet a 16-bit table word shows the first two bytes of (byte 0 in bits 15:8), completed by the
terminator, and for the address-set packet by the rest of its payload (log 8). -/
def tableTxPacket (w : Nat) : List Byte :=
  let b0 := tableByte w 1
  let b1 := tableByte w 0
  if b0 = bcastHdr ∧ b1 = 0x30 then [b0, b1, 0x01, term] else [b0, b1, term]

/-- The raw form a table word stands for. Words of one byte are request codes (bits 2:0), a nibble byte where bit 3
is set, or a shape code (bits 1:0) where the reader's field bits 4 and 7 show that row; words of two bytes are
transmitted packets or, where the high nibble is not 8, shape codes; longer words are received packets (log 8). -/
def tableImage (nbits w : Nat) : Option Image :=
  if nbits ≤ 8 then
    if w < 8 then some (.req { op := BitVec.ofNat 3 w })
    else if w < 16 then some (.item (BitVec.ofNat 8 w))
    else if w < 256 ∧ w &&& 0x6C = 0 then some (.shape (BitVec.ofNat 2 w))
    else none
  else if nbits ≤ 16 then
    if 0x8000 ≤ w ∧ w < 0x9000 then some (.tx 0 (tableTxPacket w))
    else if w &&& 0xF6FC = 0 ∧ w < 0x10000 then some (.shape (BitVec.ofNat 2 w))
    else none
  else if w < 2 ^ 32 then some (.rx (tableRxPacket w))
  else none

/-- The instruction the decoder reads from a word of spec/opcode_table.json. -/
def decodeTableWord (nbits w : Nat) : Option Instr :=
  match tableImage nbits w with
  | none => none
  | some im =>
    match decode Params.default im with
    | .ok i => some i
    | .error _ => none

end Sys2Proof
end

