-- ==== Sys2Proof/Machine/Transmit.lean ====
section
/-! DEFINITION. Transmitted packets by format (spec/30_encoding.md R92 to R97), the rows of formats TX and TX-ITEM, and
the abbreviations (R116), the rows of format PSEUDO. A format's meaning is the operation its row's note names, given
that packet (log 9). -/

namespace Sys2Proof.Machine

open Sys2Proof.Config

/-- TX_GENERIC (R92): a packet of any payload, sent with `SEND` (R190). -/
def execTxGeneric (addr : Nibble) (payload : List Byte) (s : State) : Answer :=
  requestSend (addrOperand addr) payload s

/-- COMMAND (R94): sent with `SEND` (R190). -/
def execCommand (addr : Nibble) (op : List Byte) (s : State) : Answer :=
  requestSend (addrOperand addr) (typeCmd :: op) s

/-- INQUIRY (R95): sent with `INQ` (R191), its reply decoded with the shape. -/
def execInquiry (addr : Nibble) (sh : Shape) (op : List Byte) (s : State) : Answer :=
  requestInquiry (addrOperand addr) sh (typeInq :: op) s

/-- ADDRESS_SET (R96, R231): sent by `ASSIGN` (R230). -/
def execAddressSet (s : State) : Answer := requestAssign s

/-- CANCEL (R96, R238): an ordinary `SEND` of the one payload byte `0x20 | socket` (log 23). -/
def execCancel (addr socket : Nibble) (s : State) : Answer :=
  requestSend (addrOperand addr) [joinNib 2#4 socket] s

/-- NIBBLE_BYTE (R97): the encoder puts the byte `0n` next in the packet it is building (R194; log 10); past MAXLEN
there is no place for it (R199). -/
def execNibbleByte (n : Nibble) (s : State) : Answer :=
  if s.tlen < s.cfg.maxLen then .next (putByte s (joinNib 0#4 n)) else .refused .payloadTooLong

/-- `COMMAND a, b..` is `SEND a, 01 b..` (R116). -/
def execCommandPseudo (addr : Byte) (items : List Item) (s : State) : Answer :=
  requestSend addr (expand (.b typeCmd :: items)) s

/-- `INQUIRY a, shape, b..` is `INQ a, shape, 09 b..` (R116). -/
def execInquiryPseudo (addr : Byte) (sh : Shape) (items : List Item) (s : State) : Answer :=
  requestInquiry addr sh (expand (.b typeInq :: items)) s

/-- `CANCEL a, s` is `SEND a, <0x20|s>` (R116). -/
def execCancelPseudo (addr : Byte) (socket : Nibble) (s : State) : Answer :=
  requestSend addr (expand [.b (joinNib 2#4 socket)]) s

/-- `ADDRSET` is `SEND 8, 30 01`, without the post-check of `ASSIGN` (R116). -/
def execAddrsetPseudo (s : State) : Answer := requestSend addrBcast (expand [.b 0x30, .b 0x01]) s

end Sys2Proof.Machine
end

