-- ==== Sys2Proof/Machine/Dispatch.lean ====
section
/-! DEFINITION. exec: one arm for each instruction. -/

namespace Sys2Proof.Machine

def exec (i : Instr) (s : State) : Host.Outcome State Fault Refusal :=
  match i with
  -- RX
  | .reply hdr socket payload => Sys2Proof.Machine.execReply hdr socket payload s
  | .ack hdr socket => Sys2Proof.Machine.execAck hdr socket s
  | .pushIr hdr irId key => Sys2Proof.Machine.execPushIr hdr irId key s
  | .pushNet hdr => Sys2Proof.Machine.execPushNet hdr s
  | .undersized first => Sys2Proof.Machine.execUndersized first s
  | .error hdr socket code => Sys2Proof.Machine.execError hdr socket code s
  | .addrEnumReply n => Sys2Proof.Machine.execAddrEnumReply n s
  | .broadcast rest => Sys2Proof.Machine.execBroadcast rest s
  | .unknown hdr rest => Sys2Proof.Machine.execUnknown hdr rest s
  -- RX-FRAMER
  | .oversized => Sys2Proof.Machine.execOversized s
  | .timeout => Sys2Proof.Machine.execTimeout s
  | .transportErr => Sys2Proof.Machine.execTransportErr s
  -- TX
  | .txGeneric addr payload => Sys2Proof.Machine.execTxGeneric addr payload s
  | .command addr op => Sys2Proof.Machine.execCommand addr op s
  | .inquiry addr shape op => Sys2Proof.Machine.execInquiry addr shape op s
  | .addressSet => Sys2Proof.Machine.execAddressSet s
  | .cancel addr socket => Sys2Proof.Machine.execCancel addr socket s
  -- TX-ITEM
  | .nibbleByte n => Sys2Proof.Machine.execNibbleByte n s
  -- REQ
  | .recv => Sys2Proof.Machine.execRecv s
  | .wait => Sys2Proof.Machine.execWait s
  | .send addr items => Sys2Proof.Machine.execSend addr items s
  | .inq addr shape items => Sys2Proof.Machine.execInq addr shape items s
  | .decode shape => Sys2Proof.Machine.execDecode shape s
  | .assign => Sys2Proof.Machine.execAssign s
  | .seth ir net => Sys2Proof.Machine.execSeth ir net s
  | .nop => Sys2Proof.Machine.execNop s
  -- PSEUDO
  | .commandPseudo addr items => Sys2Proof.Machine.execCommandPseudo addr items s
  | .inquiryPseudo addr shape items => Sys2Proof.Machine.execInquiryPseudo addr shape items s
  | .cancelPseudo addr socket => Sys2Proof.Machine.execCancelPseudo addr socket s
  | .addrsetPseudo => Sys2Proof.Machine.execAddrsetPseudo s
  -- RX-DECODE
  | .shapeS4 => Sys2Proof.Machine.execShapeS4 s
  | .shapeS16 => Sys2Proof.Machine.execShapeS16 s
  | .shapeS16x2 => Sys2Proof.Machine.execShapeS16x2 s
  | .shapeS32 => Sys2Proof.Machine.execShapeS32 s

end Sys2Proof.Machine
end

