-- ==== Sys2Proof/Machine/Ports.lean ====
section
/-! DEFINITION. The ports (spec/10_state.md R36 to R41): taking what an agent offers from its feed, and the signals of
the receive port (R38). -/

namespace Sys2Proof.Machine

open Sys2Proof.Config

/-- What the feed offers now, if anything. -/
def Feed.head? {α : Type} (f : Feed α) : Option α :=
  match f.once with
  | a :: _ => some a
  | [] => f.forever.head?

/-- The feed with what it offers now taken from it (R63). -/
def Feed.rest {α : Type} (f : Feed α) : Feed α :=
  match f.once with
  | _ :: as => { f with once := as }
  | [] => { f with once := f.forever.tail }

/-- The feed that offers one thing more, before everything else. -/
def Feed.cons {α : Type} (a : α) (f : Feed α) : Feed α := { f with once := a :: f.once }

/-- `rx_rsp_status` of an answer (R38). -/
def rxStatus : RxAnswer → BitVec 2
  | .byte _ => 0#2
  | .empty => 1#2
  | .error => 2#2

/-- The answer that `rx_rsp_status` and `rx_rsp_data` carry (R38); code 3 carries none (log 30). -/
def rxAnswerOf (status : BitVec 2) (data : Byte) : Option RxAnswer :=
  if status = 0#2 then some (.byte data)
  else if status = 1#2 then some .empty
  else if status = 2#2 then some .error
  else none

/-- The answer that a return value of the transport's one-byte `read` is (R38): 1 is a byte, 0 is Empty, a negative
value is Error; a one-byte read returns no other (R277). -/
def rxAnswerOfRead (returned : Int) (data : Byte) : Option RxAnswer :=
  if returned = 1 then some (.byte data)
  else if returned = 0 then some .empty
  else if returned < 0 then some .error
  else none

end Sys2Proof.Machine
end

