-- ==== Sys2Proof/Machine/Events.lean ====
section
/-! DEFINITION. Events (spec/00_scope.md R8, spec/40_framer.md R141): which event the block is offered next, what
accepting it leads to, and where a table word stands to be run next. -/

namespace Sys2Proof.Machine

open Sys2Proof.Config

/-- What accepting an event leads to within the step. -/
inductive Action
  /-- the step is complete -/
  | done (s : State)
  /-- the instruction is executed in the state -/
  | run (i : Instr) (s : State)
  /-- the machine stops -/
  | stop (f : Fault)
deriving DecidableEq, Repr

/-- `OnRx(Byte(b))` (R132 to R135): the byte is stored and counted; the terminator ends the packet, which is classified
in the same step; MAXLEN bytes without one are OVERSIZED; otherwise the next byte is asked for. -/
def onByte (b : Byte) (s : State) : Action :=
  if s.phase = .rxw then
    if s.rlen < s.cfg.maxLen then
      let t := storeByte b s
      if b = term then .run (classify (rxPacket t)) t
      else if t.rlen = s.cfg.maxLen then .run (decodeFramer .bound) t
      else .done (emit .rxReq t)
    else .stop .rbufIndex
  else .done s

/-- Accepting an event (R141). Out of its phase an event changes nothing (R282). -/
def accept (e : Event) (s : State) : Action :=
  match e with
  | .hostReq r => .run (decodeReq r) s
  | .rxRsp (.byte b) => onByte b s
  | .rxRsp .empty => .run (decodeFramer .empty) s
  | .rxRsp .error => .run (decodeFramer .error) s
  | .txRsp w => .done (writeAnswered w s)
  | .handlerReturn => .done (handlerReturned s)
  | .reset => .done (resetBlock s)

/-- The state with this step's sample of the reset pin taken (R41). -/
def dropSample (s : State) : State := { s with rst := s.rst.rest }

/-- This step's sample of the reset pin (R41); with no sample offered the pin is low. -/
def resetSampled (s : State) : Bool := s.rst.head?.getD false

/-- The event the step is offered, and the state with it taken from its port: `Reset` if the pin is sampled high (R41),
otherwise the event the phase waits for (R24, R141), if one has arrived. A request made while the block is busy is held
at its port (R36); the receive stream is read only in phase RXW (R79). -/
def nextEvent (s : State) : Option (Event × State) :=
  if resetSampled s then some (.reset, dropSample s)
  else
    match s.phase with
    | .idle => s.requests.head?.map fun r => (.hostReq r, { dropSample s with requests := s.requests.rest })
    | .rxw => s.rxStream.head?.map fun a => (.rxRsp a, { dropSample s with rxStream := s.rxStream.rest })
    | .txw => s.txAnswers.head?.map fun w => (.txRsp w, { dropSample s with txAnswers := s.txAnswers.rest })
    | .hdw =>
      s.handlerReturns.head?.map fun _ =>
        (.handlerReturn, { dropSample s with handlerReturns := s.handlerReturns.rest })

/-- The step's action: the next event's, or waiting when none is offered (R278, R292; log 6). -/
def nextAction (s : State) : Action :=
  match nextEvent s with
  | none => .done (dropSample s)
  | some (e, t) => accept e t

/-- The state in which the next step runs the instruction of a raw form. A received packet stands in `rbuf` but for its
terminator, which the receive stream answers next; a framing outcome is the stream's next answer (OVERSIZED: the byte
that fills the buffer); a request, and the request that makes the block do what any other row stands for, is presented
at the request port. -/
def placeImage (im : Image) (s : State) : State :=
  match im with
  | .rx p =>
    { s with phase := .rxw, rbuf := p.dropLast ++ s.rbuf.drop p.dropLast.length, rlen := p.dropLast.length,
             rxStream := s.rxStream.cons (.byte term), rst := .silent }
  | .framer .bound =>
    { s with phase := .rxw, rlen := s.cfg.maxLen - 1, rxStream := s.rxStream.cons (.byte 0x00), rst := .silent }
  | .framer .empty => { s with phase := .rxw, rxStream := s.rxStream.cons .empty, rst := .silent }
  | .framer .error => { s with phase := .rxw, rxStream := s.rxStream.cons .error, rst := .silent }
  | .req r => { s with phase := .idle, requests := s.requests.cons r, rst := .silent }
  | _ =>
    match decode s.cfg im with
    | .error _ => s
    | .ok i =>
      match requestOf i with
      | none => s
      | some r => { s with phase := .idle, requests := s.requests.cons r, rst := .silent }

end Sys2Proof.Machine
end

