-- ==== Sys2Proof/Machine/Step.lean ====
section
/-! DEFINITION. The step: the next event is taken from its port and accepted, the instruction it decodes to is
executed. -/

namespace Sys2Proof.Machine

open Sys2Proof.Config

/-- An action carried out. -/
def Action.perform : Action → Answer
  | .done s => .next s
  | .run i s => exec i s
  | .stop f => .fault f

/-- The block's transition on one event (R8, R141). -/
def onEvent (e : Event) (s : State) : Answer := (accept e s).perform

/-- One step (R8). A MAXLEN below 3 has no meaning (R281). -/
def step (s : State) : Host.Outcome State Fault Refusal :=
  if s.cfg.legal then (nextAction s).perform else .refused .illegalParameters

/-- The state in which the next step runs the instruction of a word of spec/opcode_table.json (log 7, log 8). -/
def State.withFetchWord (s : State) (nbits w : Nat) : State :=
  match tableImage nbits w with
  | none => s
  | some im => placeImage im s

end Sys2Proof.Machine
end

