-- ==== Sys2Proof/Machine/BigStep.lean ====
section
/-! DEFINITION. The functions the spec gives beside its steps: framing as a function of the transport's answers
(spec/40_framer.md R138), the handshake as a function (spec/42_handshake.md R187), the decoder as a function
(spec/44_decoder.md R220). The machine does not use them; statements compare it with them. -/

namespace Sys2Proof.Machine

open Sys2Proof.Config

/-- How a framing ends (R138). -/
inductive FrameEnd
  | packet
  | oversized
  | timeout
  | transportErr
deriving DecidableEq, Repr

/-- `Frame(a)` (R138) from the bytes already stored, with room for `room` more: the outcome, the bytes, and the feed left;
none where the feed offers too little to end the packet. -/
def frameFn : Nat → List Byte → Feed RxAnswer → Option (FrameEnd × List Byte × Feed RxAnswer)
  | 0, _, _ => none
  | room + 1, bytes, a =>
    match a.head? with
    | none => none
    | some .empty => some (.timeout, bytes, a.rest)
    | some .error => some (.transportErr, bytes, a.rest)
    | some (.byte b) =>
      if b = term then some (.packet, bytes ++ [b], a.rest)
      else if room = 0 then some (.oversized, bytes ++ [b], a.rest)
      else frameFn room (bytes ++ [b]) a.rest

/-- The answers a framing from an empty buffer takes: one for each byte stored, and the Empty or Error that ended it
(R138). -/
def frameAnswers : FrameEnd → List Byte → Nat
  | .packet, bytes => bytes.length
  | .oversized, bytes => bytes.length
  | .timeout, bytes => bytes.length + 1
  | .transportErr, bytes => bytes.length + 1

/-- The instruction a framing ends with: the packet's classification or the framer's outcome (R133, R134, R136,
R137). -/
def frameInstr : FrameEnd → List Byte → Instr
  | .packet, bytes => classify bytes
  | .oversized, _ => decodeFramer .bound
  | .timeout, _ => decodeFramer .empty
  | .transportErr, _ => decodeFramer .error

/-- The reads a framing issues beyond the one `StartFrame` issued: one for each stored byte but the last of a complete
or over-long packet (R135, R62). -/
def frameReads : FrameEnd → List Byte → Nat
  | .packet, bytes => bytes.length - 1
  | .oversized, bytes => bytes.length - 1
  | .timeout, bytes => bytes.length
  | .transportErr, bytes => bytes.length

/-- A terminal outcome of the handshake (R187): what is latched, the last packet's bytes, the count recorded if any,
the push events delivered in order, the feed left. -/
structure HandshakeEnd where
  kind : Kind
  result : Byte
  bytes : List Byte
  count : Option (BitVec 3)
  events : List Output
  left : Feed RxAnswer
deriving DecidableEq, Repr

/-- What the handshake loop does with the instruction a framing ends with (R187): a push event to deliver, if its
handler is registered; nothing more for an Acknowledge that is absorbed; a terminal kind and code otherwise. -/
inductive LoopTurn
  | again (event : Option Output)
  | leave (kind : Kind) (result : Byte) (count : Option (BitVec 3))
deriving DecidableEq, Repr

/-- One turn of the handshake loop by the instruction a framing ends with (R164, R187): an Acknowledge is absorbed, but in
RECV mode it is returned; none for what no framing ends with. -/
def loopTurn (prm : Params) (mode : Mode) (ir net : Bool) : Instr → Option LoopTurn
  | .reply _ _ _ => some (.leave .reply 0x00 none)
  | .ack _ _ => some (if mode = .recv then .leave .ack 0xD0 none else .again none)
  | .pushIr hdr i k => some (.again (if ir then some (.irEvent (camPort hdr) i k) else none))
  | .pushNet hdr => some (.again (if net then some (.netEvent (camPort hdr)) else none))
  | .undersized _ => some (.leave .undersized 0xFC none)
  | .error _ _ c => some (.leave .error c none)
  | .addrEnumReply n =>
    if 0x02 ≤ n ∧ n ≤ 0x08 then some (.leave .addrEnum 0x00 (some (BitVec.ofNat 3 (n.toNat - 1))))
    else some (.leave .unknown 0xFB none)
  | .broadcast _ => some (.leave .broadcast 0x00 none)
  | .unknown _ _ => some (.leave .unknown 0xFB none)
  | .oversized => some (.leave .oversized 0xFD none)
  | .timeout => some (.leave .timeout 0xFE none)
  | .transportErr => some (.leave .transportErr prm.codeTransportError none)
  | .txGeneric _ _ => none
  | .command _ _ => none
  | .inquiry _ _ _ => none
  | .addressSet => none
  | .cancel _ _ => none
  | .nibbleByte _ => none
  | .recv => none
  | .wait => none
  | .send _ _ => none
  | .inq _ _ _ => none
  | .decode _ => none
  | .assign => none
  | .seth _ _ => none
  | .nop => none
  | .commandPseudo _ _ => none
  | .inquiryPseudo _ _ _ => none
  | .cancelPseudo _ _ => none
  | .addrsetPseudo => none
  | .shapeS4 => none
  | .shapeS16 => none
  | .shapeS16x2 => none
  | .shapeS32 => none

/-- `Handshake(s)` (R187) over the answers the transport gives, at most `fuel` packets of them; none while they do not
end it. The loop itself has no bound (R183): `fuel` bounds the function, not the machine. -/
def handshakeFn (prm : Params) (mode : Mode) (ir net : Bool) :
    Nat → Feed RxAnswer → List Output → Option HandshakeEnd
  | 0, _, _ => none
  | fuel + 1, a, events =>
    match frameFn prm.maxLen [] a with
    | none => none
    | some (out, bytes, rest) =>
      match loopTurn prm mode ir net (frameInstr out bytes) with
      | none => none
      | some (.again none) => handshakeFn prm mode ir net fuel rest events
      | some (.again (some e)) => handshakeFn prm mode ir net fuel rest (events ++ [e])
      | some (.leave k c count) => some ⟨k, c, bytes, count, events, rest⟩

/-- `DecodeFn(s, p)` (R220): the values of a Reply packet's fields, none if its length does not fit the shape. -/
def decodeFn (sh : Shape) (p : List Byte) : Option (Nat × Option Nat) :=
  if p.length = shapeNibbles sh + 3 then
    match sh with
    | .s4 => some (fieldAt p 2 1, none)
    | .s16 => some (fieldAt p 2 4, none)
    | .s16x2 => some (fieldAt p 2 4, some (fieldAt p 6 4))
    | .s32 => some (fieldAt p 2 8, none)
  else none

/-- The field values an operation reports for an end of its handshake: those an `INQ` decodes from a Reply of its shape
(R184, R220). -/
def reportedValues (mode : Mode) (sh : Shape) (e : HandshakeEnd) : Option (Nat × Option Nat) :=
  if mode = .inq ∧ e.kind = .reply then decodeFn sh e.bytes else none

/-- The result an operation reports for an end of its handshake: the post-checks of `INQ` (R184) and `ASSIGN` (R233)
turn successes that are not what was asked for into UnexpectedPacket, and leave every failure as it is. -/
def reportedResult (mode : Mode) (sh : Shape) (e : HandshakeEnd) : Byte :=
  match mode with
  | .recv => e.result
  | .wait => e.result
  | .send => e.result
  | .inq =>
    if success e.kind e.result = true ∧ (reportedValues .inq sh e).isNone then 0xFA else e.result
  | .assign => if success e.kind e.result = true ∧ e.kind ≠ .addrEnum then 0xFA else e.result

end Sys2Proof.Machine
end

