-- ==== Sys2Proof/Machine/Status.lean ====
section
/-! DEFINITION. The host response and status port (spec/10_state.md R36, R37): what the host can read. -/

namespace Sys2Proof.Machine

open Sys2Proof.Config

/-- `busy` (R36). -/
def busy (s : State) : Bool := s.phase != .idle

/-- The byte the status port shows of `rbuf[i]`: the packet's byte below `rlen`, an unspecified one from there on
(R34, R37, D9; log 12). -/
def statusRbuf (s : State) (i : Nat) : Byte :=
  if i < s.rlen then byteAt s.rbuf i else staleByte i (byteAt s.rbuf i)

/-- The byte the status port shows of `tbuf[i]` (R37). -/
def statusTbuf (s : State) (i : Nat) : Byte := byteAt s.tbuf i

/-- The status outputs that are single values (R37), `kind` as its 4-bit code (R27). -/
structure Status where
  busy : Bool
  kind : BitVec 4
  result : Byte
  rlen : Nat
  val0 : BitVec 32
  val1 : BitVec 16
  camcnt : BitVec 3
  irEn : Bool
  netEn : Bool
  tlen : Nat
deriving DecidableEq, Repr

/-- What the status port shows (R37). -/
def status (s : State) : Status where
  busy := Machine.busy s
  kind := kindCode s.kind
  result := s.result
  rlen := s.rlen
  val0 := s.val0
  val1 := s.val1
  camcnt := s.camcnt
  irEn := s.irEn
  netEn := s.netEn
  tlen := s.tlen

end Sys2Proof.Machine
end

