-- ==== Sys2Proof/Safety.lean ====
section
/-! DEFINITION. What holds of the block between steps, and what a safe outcome is. -/

namespace Sys2Proof.Machine

open Sys2Proof.Config

/-- The output event hands a push message to a handler (R40). -/
def Output.isPush : Output → Bool
  | .irEvent _ _ _ => true
  | .netEvent _ => true
  | .rxReq => false
  | .txReq _ => false
  | .done _ _ => false

/-- The kinds that name a failure whose code is never 0 (R250): a camera's Error and, its code being a parameter, a
transport error are not among them. -/
def kindFails : Kind → Bool
  | .undersized => true
  | .unknown => true
  | .oversized => true
  | .timeout => true
  | .writeFail => true
  | .none => false
  | .reply => false
  | .ack => false
  | .pushIr => false
  | .pushNet => false
  | .error => false
  | .addrEnum => false
  | .broadcast => false
  | .transportErr => false

/-- The operations that write a packet (R76). -/
def modeWrites : Mode → Bool
  | .send => true
  | .inq => true
  | .assign => true
  | .recv => false
  | .wait => false

/-- The buffers are MAXLEN bytes and the lengths within them (R20 to R22, R84): what a memory's canonical form is
elsewhere. -/
structure BuffersWf (s : State) : Prop where
  rbuf_length : s.rbuf.length = s.cfg.maxLen
  tbuf_length : s.tbuf.length = s.cfg.maxLen
  rlen_le : s.rlen ≤ s.cfg.maxLen
  tlen_le : s.tlen ≤ s.cfg.maxLen

/-- What holds of the block between any two steps. -/
structure Inv (s : State) : Prop where
  /-- R5 -/
  legal : s.cfg.legal
  /-- R20, R21, R22, R32, R84 -/
  buffers : BuffersWf s
  /-- `kind` never holds a push kind (R27, R159) -/
  kind_not_push : s.kind ≠ .pushIr ∧ s.kind ≠ .pushNet
  /-- while a byte is awaited there is room for it and no terminator has been stored (R62, R84, R90) -/
  reading : s.phase = .rxw → s.rlen < s.cfg.maxLen ∧ noTerm (rxPacket s) = true
  /-- one read is outstanding in RXW and it is the last event (R38, R62) -/
  read_issued : s.phase = .rxw → s.outputs.getLast? = some .rxReq
  /-- in TXW the packet in `tbuf` has been handed over, by an operation that writes (R39, R76, R92) -/
  write_issued : s.phase = .txw →
    modeWrites s.mode = true ∧ 2 ≤ s.tlen ∧ s.outputs.getLast? = some (.txReq (s.tbuf.take s.tlen))
  /-- in HDW a push event is the last event: no read is outstanding (R46, R77) -/
  push_issued : s.phase = .hdw → ∃ o, s.outputs.getLast? = some o ∧ o.isPush = true
  /-- only `RECV` ends with an Acknowledge (R185, R261) -/
  ack_only_recv : s.phase = .idle → s.kind = .ack → s.mode = .recv
  /-- an enumeration reply leaves a count (R29, R156, C12) -/
  enum_counted : s.kind = .addrEnum → s.camcnt ≠ 0
  /-- a failure kind never stands beside the success code (R250, R270) -/
  failure_coded : kindFails s.kind = true → s.result ≠ 0x00

/-- A framing begun: length 0, one read issued (R131). -/
def framing (s : State) : State :=
  { s with rlen := 0, phase := .rxw, outputs := s.outputs ++ [.rxReq] }

/-- An operation ended with a kind and a code (R139, R140). -/
def ended (k : Kind) (c : Byte) (s : State) : State :=
  { s with kind := k, result := c, phase := .idle, outputs := s.outputs ++ [.done k c] }

/-- A packet built at the start of the transmit buffer and handed over (R194, R195). -/
def written (packet : List Byte) (s : State) : State :=
  { s with tbuf := packet ++ s.tbuf.drop packet.length, tlen := packet.length, phase := .txw,
           outputs := s.outputs ++ [.txReq packet] }

/-- A push event handed over (R264). -/
def delivered (o : Output) (s : State) : State := { s with phase := .hdw, outputs := s.outputs ++ [o] }

/-- The number whose hexadecimal digits, first digit first, are the low nibbles of the `n` bytes from index `i`
(R66). -/
def digitsAt (buf : List Byte) (i : Nat) : Nat → Nat
  | 0 => 0
  | n + 1 => digitsAt buf i n * 16 + (byteAt buf (i + n)).toNat % 16

/-- The state with a shape's fields read from the receive buffer into `val0` and `val1` (R110). -/
def withFields (sh : Shape) (s : State) : State :=
  match sh with
  | .s4 => { s with val0 := BitVec.ofNat 32 (digitsAt s.rbuf 2 1) }
  | .s16 => { s with val0 := BitVec.ofNat 32 (digitsAt s.rbuf 2 4) }
  | .s16x2 =>
    { s with val0 := BitVec.ofNat 32 (digitsAt s.rbuf 2 4), val1 := BitVec.ofNat 16 (digitsAt s.rbuf 6 4) }
  | .s32 => { s with val0 := BitVec.ofNat 32 (digitsAt s.rbuf 2 8) }

/-- The feed offers at least `n` things. -/
def Feed.enough {α : Type} (n : Nat) (f : Feed α) : Prop := n ≤ f.once.length ∨ f.forever ≠ []

/-- A packet that ends no operation in a mode (R151, R152, R153, R181): an Acknowledge in a looping mode, or a push
message. -/
def Absorbed (mode : Mode) (p : List Byte) : Prop :=
  (mode ≠ .recv ∧ ∃ (h : Byte) (k : Nibble), h ≠ 0xFF ∧ p = [h, 4#4 ++ k, 0xFF]) ∨
  (∃ h : Byte, h ≠ 0xFF ∧ p = [h, 0x38, 0xFF]) ∨
  (∃ h i k : Byte, h ≠ 0xFF ∧ i ≠ 0xFF ∧ k ≠ 0xFF ∧ p = [h, 0x07, 0x7D, 0x02, i, k, 0xFF])

/-- How the state `t` in which an operation of mode `mode` ended stands to the state `s` in which its handshake began,
the handshake's end being `e` (R140, R181, R184, R187, R233). -/
structure HandshakeReported (s : State) (mode : Mode) (shape : Shape) (e : HandshakeEnd) (t : State) : Prop where
  idle : t.phase = .idle
  kind : t.kind = e.kind
  result : t.result = reportedResult mode shape e
  done : t.outputs.getLast? = some (.done e.kind (reportedResult mode shape e))
  packet : rxPacket t = e.bytes
  left : t.rxStream = e.left
  count : t.camcnt = e.count.getD s.camcnt
  events : t.outputs.filter Output.isPush = s.outputs.filter Output.isPush ++ e.events
  val0 : t.val0 = ((reportedValues mode shape e).map fun v => BitVec.ofNat 32 v.1).getD s.val0
  val1 : t.val1 = ((reportedValues mode shape e).bind fun v => v.2.map (BitVec.ofNat 16)).getD s.val1

/-- Nibble bytes put into the transmit buffer one after another (R97, R194). -/
def storeNibbles : List Nibble → State → Answer
  | [], s => .next s
  | n :: ns, s =>
    match exec (.nibbleByte n) s with
    | .next t => storeNibbles ns t
    | .fault f => .fault f
    | .refused r => .refused r

/-- Bytes placed in the transmit buffer from `tlen` on. -/
def appended (bs : List Byte) (s : State) : State :=
  { s with tbuf := s.tbuf.take s.tlen ++ bs ++ s.tbuf.drop (s.tlen + bs.length), tlen := s.tlen + bs.length }

/-- The kinds in the order of their codes (R27). -/
def kindsInOrder : List Kind :=
  [.none, .reply, .ack, .pushIr, .pushNet, .undersized, .error, .addrEnum, .broadcast, .unknown, .oversized, .timeout,
   .transportErr, .writeFail]

/-- The packet length a shape requires (R110, R211). -/
def requiredLength : Shape → Nat
  | .s4 => 4
  | .s16 => 7
  | .s16x2 => 11
  | .s32 => 11

/-- The place of an instruction's row in the classification map (R117), counted from 0; 9 for what is no received
packet. -/
def rxRowOf : Instr → Nat
  | .reply _ _ _ => 0
  | .ack _ _ => 1
  | .pushIr _ _ _ => 2
  | .pushNet _ => 3
  | .undersized _ => 4
  | .error _ _ _ => 5
  | .addrEnumReply _ => 6
  | .broadcast _ => 7
  | .unknown _ _ => 8
  | .oversized => 9
  | .timeout => 9
  | .transportErr => 9
  | .txGeneric _ _ => 9
  | .command _ _ => 9
  | .inquiry _ _ _ => 9
  | .addressSet => 9
  | .cancel _ _ => 9
  | .nibbleByte _ => 9
  | .recv => 9
  | .wait => 9
  | .send _ _ => 9
  | .inq _ _ _ => 9
  | .decode _ => 9
  | .assign => 9
  | .seth _ _ => 9
  | .nop => 9
  | .commandPseudo _ _ => 9
  | .inquiryPseudo _ _ _ => 9
  | .cancelPseudo _ _ => 9
  | .addrsetPseudo => 9
  | .shapeS4 => 9
  | .shapeS16 => 9
  | .shapeS16x2 => 9
  | .shapeS32 => 9

end Sys2Proof.Machine
end

