-- ==== Sys2Proof/Certificates/Slice0/Obligations.lean ====
section
/-! DEFINITION. The statements for the provers, by part of the spec. -/

open Sys2Proof Sys2Proof.Config Sys2Proof.Machine

/-! ## Host operations (spec/40_framer.md, 42, 43, 44, 45) -/

/-- RECV and WAIT, accepted in IDLE, latch their mode and start a framing; nothing else changes (R130, R131, R180). -/
def Obligations.RecvAndWaitStartFraming : Prop :=
  ∀ s : State, s.phase = .idle →
    exec .recv s = .next (framing { s with mode := .recv }) ∧
    exec .wait s = .next (framing { s with mode := .wait })

/-- SEND with a payload that fits writes `[0x80 | (addr & 0x0F), payload.., 0xFF]` and changes nothing but the mode,
the transmit buffer, its length, the phase and the events (R190, R194, R195). -/
def Obligations.SendWritesTheEncodedPacket : Prop :=
  ∀ (s : State) (addr : Byte) (items : List Item), s.phase = .idle → s.tbuf.length = s.cfg.maxLen →
    (expand items).length + 2 ≤ s.cfg.maxLen →
    exec (.send addr items) s =
      .next (written (((0x80 ||| (addr &&& 0x0F)) :: expand items) ++ [0xFF]) { s with mode := .send })

/-- INQ does as SEND, and latches the shape (R191). -/
def Obligations.InqLatchesTheShapeAndWrites : Prop :=
  ∀ (s : State) (addr : Byte) (sh : Shape) (items : List Item), s.phase = .idle → s.tbuf.length = s.cfg.maxLen →
    (expand items).length + 2 ≤ s.cfg.maxLen →
    exec (.inq addr sh items) s =
      .next (written (((0x80 ||| (addr &&& 0x0F)) :: expand items) ++ [0xFF]) { s with mode := .inq, shapeR := sh })

/-- ASSIGN writes the broadcast packet with the parameter payload; `camcnt` keeps its value (R230, R232). -/
def Obligations.AssignWritesTheEnumerationPacket : Prop :=
  ∀ s : State, s.phase = .idle → s.tbuf.length = s.cfg.maxLen → s.cfg.addrsetPayload.length + 2 ≤ s.cfg.maxLen →
    exec .assign s = .next (written ((0x88 :: s.cfg.addrsetPayload) ++ [0xFF]) { s with mode := .assign })

/-- The five transmitted formats: each puts the row's own bytes on the link, in the operation its row names (log 9:
that a format stands for that operation is the model's reading of the rows' notes). The cancel bytes are log 23. -/
def Obligations.TransmittedFormatsRunTheirOperation : Prop :=
  ∀ (s : State) (a k : Nibble) (sh : Shape) (p op : List Byte), s.phase = .idle → s.tbuf.length = s.cfg.maxLen →
    (p.length + 2 ≤ s.cfg.maxLen →
      exec (.txGeneric a p) s = .next (written (((8#4 ++ a : Byte) :: p) ++ [0xFF]) { s with mode := .send })) ∧
    (op.length + 3 ≤ s.cfg.maxLen →
      exec (.command a op) s =
        .next (written (((8#4 ++ a : Byte) :: 0x01 :: op) ++ [0xFF]) { s with mode := .send })) ∧
    (op.length + 3 ≤ s.cfg.maxLen →
      exec (.inquiry a sh op) s =
        .next (written (((8#4 ++ a : Byte) :: 0x09 :: op) ++ [0xFF]) { s with mode := .inq, shapeR := sh })) ∧
    (s.cfg.addrsetPayload.length + 2 ≤ s.cfg.maxLen →
      exec .addressSet s = .next (written ((0x88 :: s.cfg.addrsetPayload) ++ [0xFF]) { s with mode := .assign })) ∧
    (3 ≤ s.cfg.maxLen →
      exec (.cancel a k) s =
        .next (written [(8#4 ++ a : Byte), (2#4 ++ k : Byte), 0xFF] { s with mode := .send }))

/-- The four abbreviations do what their expansions do (R116). The cancel and address-set bytes are log 23 and log 14.
-/
def Obligations.AbbreviationsRunTheirExpansion : Prop :=
  ∀ (s : State) (addr : Byte) (k : Nibble) (sh : Shape) (items : List Item), s.phase = .idle →
    s.tbuf.length = s.cfg.maxLen →
    ((expand items).length + 3 ≤ s.cfg.maxLen →
      exec (.commandPseudo addr items) s =
        .next (written (((0x80 ||| (addr &&& 0x0F)) :: 0x01 :: expand items) ++ [0xFF]) { s with mode := .send })) ∧
    ((expand items).length + 3 ≤ s.cfg.maxLen →
      exec (.inquiryPseudo addr sh items) s =
        .next (written (((0x80 ||| (addr &&& 0x0F)) :: 0x09 :: expand items) ++ [0xFF])
          { s with mode := .inq, shapeR := sh })) ∧
    (3 ≤ s.cfg.maxLen →
      exec (.cancelPseudo addr k) s =
        .next (written [0x80 ||| (addr &&& 0x0F), 0x20 ||| k.setWidth 8, 0xFF] { s with mode := .send })) ∧
    (4 ≤ s.cfg.maxLen →
      exec .addrsetPseudo s = .next (written [0x88, 0x30, 0x01, 0xFF] { s with mode := .send }))

/-- A payload longer than MAXLEN - 2 is refused, whichever form asks for it. R199 and R281 say so of the requests SEND and
INQ; that the formats TX_GENERIC, COMMAND, INQUIRY, ADDRESS_SET and CANCEL are such requests is the model's choice of
log 9, and that ASSIGN and the abbreviations are refused alike is log 17. The clauses for a MAXLEN below 3 speak of exec
alone: the step refuses such parameters first. -/
def Obligations.OverlongPayloadIsRefused : Prop :=
  ∀ (s : State) (addr : Byte) (a k : Nibble) (sh : Shape) (items : List Item) (p : List Byte), s.phase = .idle →
    (s.cfg.maxLen < (expand items).length + 2 →
      exec (.send addr items) s = .refused .payloadTooLong ∧
      exec (.inq addr sh items) s = .refused .payloadTooLong) ∧
    (s.cfg.maxLen < (expand items).length + 3 →
      exec (.commandPseudo addr items) s = .refused .payloadTooLong ∧
      exec (.inquiryPseudo addr sh items) s = .refused .payloadTooLong) ∧
    (s.cfg.maxLen < p.length + 2 → exec (.txGeneric a p) s = .refused .payloadTooLong) ∧
    (s.cfg.maxLen < p.length + 3 →
      exec (.command a p) s = .refused .payloadTooLong ∧ exec (.inquiry a sh p) s = .refused .payloadTooLong) ∧
    (s.cfg.maxLen < s.cfg.addrsetPayload.length + 2 →
      exec .assign s = .refused .payloadTooLong ∧ exec .addressSet s = .refused .payloadTooLong) ∧
    (s.cfg.maxLen < 3 →
      exec (.cancel a k) s = .refused .payloadTooLong ∧ exec (.cancelPseudo addr k) s = .refused .payloadTooLong) ∧
    (s.cfg.maxLen < 4 → exec .addrsetPseudo s = .refused .payloadTooLong)

/-- DECODE, accepted in IDLE, decodes a Reply of the shape's length and otherwise reports UnexpectedPacket; it is done
at once and the phase stays IDLE (R216). -/
def Obligations.DecodeAnswersAtOnce : Prop :=
  ∀ (s : State) (sh : Shape), s.phase = .idle →
    (s.kind = .reply → s.rlen = requiredLength sh →
      exec (.decode sh) s =
        .next { withFields sh s with result := 0x00, outputs := s.outputs ++ [.done .reply 0x00] }) ∧
    (s.kind ≠ .reply ∨ s.rlen ≠ requiredLength sh →
      exec (.decode sh) s = .next { s with result := 0xFA, outputs := s.outputs ++ [.done s.kind 0xFA] })

/-- SETH, accepted in IDLE, writes the two enables and nothing else, and is done at once with `kind` and `result` as
they were (R235). -/
def Obligations.SethWritesTheEnablesOnly : Prop :=
  ∀ (s : State) (i n : Bool), s.phase = .idle →
    exec (.seth i n) s =
      .next { s with irEn := i, netEn := n, outputs := s.outputs ++ [.done s.kind s.result] }

/-- An event out of its phase changes nothing: a host request while the block is busy, an answer of the transport or a
handler return that is not awaited (R282). -/
def Obligations.EventsOutOfPhaseChangeNothing : Prop :=
  ∀ s : State,
    (∀ r, busy s = true → onEvent (.hostReq r) s = .next s) ∧
    (∀ a, s.phase ≠ .rxw → onEvent (.rxRsp a) s = .next s) ∧
    (∀ w, s.phase ≠ .txw → onEvent (.txRsp w) s = .next s) ∧
    (s.phase ≠ .hdw → onEvent .handlerReturn s = .next s)

/-- Every row that is performed by a request changes nothing while the block is busy, and the framing outcomes that
are answers of the transport change nothing unless a byte is awaited (R36, R282; log 9 for the rows of packets and
abbreviations). -/
def Obligations.RowsWaitForTheirPhase : Prop :=
  ∀ s : State,
    (∀ i r, s.phase ≠ .idle → requestOf i = some r → (∀ n, i ≠ .nibbleByte n) → (∀ sh, i ≠ shapeInstr sh) →
      exec i s = .next s) ∧
    (s.phase ≠ .rxw → exec .timeout s = .next s ∧ exec .transportErr s = .next s)

/-- Request code 0 is no operation: it changes nothing in any phase, and no Done follows (R36, R281; log 26). -/
def Obligations.CodeZeroChangesNothing : Prop :=
  ∀ s : State, exec .nop s = .next s ∧ ∀ r, r.op = 0#3 → onEvent (.hostReq r) s = .next s

/-! ## The decoder and the encoder (spec/43_encoder.md, 44) -/

/-- A Reply of exactly the shape's length is decoded: `val0`, for two fields `val1` too, and success; everything else
keeps its value (R110, R211, R213, R214). That a SHAPE row as an instruction runs Decode in any phase and without a Done is
the model's choice of log 11. -/
def Obligations.ShapesDecodeRepliesOfTheirLength : Prop :=
  ∀ s : State, s.kind = .reply →
    (s.rlen = 4 → exec .shapeS4 s =
      .next { s with val0 := BitVec.ofNat 32 (digitsAt s.rbuf 2 1), result := 0x00 }) ∧
    (s.rlen = 7 → exec .shapeS16 s =
      .next { s with val0 := BitVec.ofNat 32 (digitsAt s.rbuf 2 4), result := 0x00 }) ∧
    (s.rlen = 11 → exec .shapeS16x2 s =
      .next { s with val0 := BitVec.ofNat 32 (digitsAt s.rbuf 2 4),
                     val1 := BitVec.ofNat 16 (digitsAt s.rbuf 6 4), result := 0x00 }) ∧
    (s.rlen = 11 → exec .shapeS32 s =
      .next { s with val0 := BitVec.ofNat 32 (digitsAt s.rbuf 2 8), result := 0x00 })

/-- Whatever is not a Reply of the shape's length gives UnexpectedPacket and no other change (R215, R217, R218); the rows
as instructions are log 11's. -/
def Obligations.OtherPacketsFailTheShapes : Prop :=
  ∀ s : State,
    (s.kind ≠ .reply ∨ s.rlen ≠ 4 → exec .shapeS4 s = .next { s with result := 0xFA }) ∧
    (s.kind ≠ .reply ∨ s.rlen ≠ 7 → exec .shapeS16 s = .next { s with result := 0xFA }) ∧
    (s.kind ≠ .reply ∨ s.rlen ≠ 11 →
      exec .shapeS16x2 s = .next { s with result := 0xFA } ∧ exec .shapeS32 s = .next { s with result := 0xFA })

/-- The decoder of the steps is the decoder as a function of the packet (R220). That a SHAPE row as an instruction runs
Decode in any phase and without a Done is the model's choice of log 11. -/
def Obligations.DecoderIsTheDecodeFunction : Prop :=
  ∀ (s : State) (sh : Shape), s.kind = .reply → s.rlen ≤ s.rbuf.length →
    (decodeFn sh (rxPacket s) = none → exec (shapeInstr sh) s = .next { s with result := 0xFA }) ∧
    (∀ v0 v1, decodeFn sh (rxPacket s) = some (v0, v1) →
      exec (shapeInstr sh) s =
        .next { s with val0 := BitVec.ofNat 32 v0, val1 := (v1.map (BitVec.ofNat 16)).getD s.val1, result := 0x00 })

/-- Values the encoder splits into nibble bytes are the values the decoder assembles from them, for 4, 16,
32 and twice 16 bits (R201); the SHAPE rows as instructions are log 11's. -/
def Obligations.NumbersSurviveTheWire : Prop :=
  ∀ (s : State) (hdr : Byte) (k : Nibble) (rest : List Byte) (n : BitVec 4) (v a b : BitVec 16) (w : BitVec 32),
    s.kind = .reply →
    (s.rlen = 4 → s.rbuf = hdr :: (5#4 ++ k : Byte) :: (expand [.n4 n] ++ 0xFF :: rest) →
      exec .shapeS4 s = .next { s with val0 := n.setWidth 32, result := 0x00 }) ∧
    (s.rlen = 7 → s.rbuf = hdr :: (5#4 ++ k : Byte) :: (expand [.n16 v] ++ 0xFF :: rest) →
      exec .shapeS16 s = .next { s with val0 := v.setWidth 32, result := 0x00 }) ∧
    (s.rlen = 11 → s.rbuf = hdr :: (5#4 ++ k : Byte) :: (expand [.n32 w] ++ 0xFF :: rest) →
      exec .shapeS32 s = .next { s with val0 := w, result := 0x00 }) ∧
    (s.rlen = 11 → s.rbuf = hdr :: (5#4 ++ k : Byte) :: (expand [.n16 a, .n16 b] ++ 0xFF :: rest) →
      exec .shapeS16x2 s = .next { s with val0 := a.setWidth 32, val1 := b, result := 0x00 })

/-- A nibble byte goes into the transmit buffer at `tlen`, its high nibble 0; a full buffer has no place for it (R97,
R194, R199; log 10: that the row stands for this one store is the model's reading). The zero high nibble on transmit
is log 19. -/
def Obligations.NibbleByteJoinsThePacket : Prop :=
  ∀ (s : State) (n : Nibble),
    (s.tlen < s.cfg.maxLen →
      exec (.nibbleByte n) s = .next { s with tbuf := s.tbuf.set s.tlen (n.setWidth 8), tlen := s.tlen + 1 }) ∧
    (s.cfg.maxLen ≤ s.tlen → exec (.nibbleByte n) s = .refused .payloadTooLong)

/-- The bytes of a numeric payload item, of 4, 16 and 32 bits, are its digits, most significant first, each with a zero
high nibble (R66, R97, R98, R200); and the nibble bytes of those digits put into the transmit buffer one after another
are the bytes of the item. Log 10: that the row NIBBLE_BYTE is one such store is the model's reading; log 19: that the high
nibble is sent as zero the spec takes from general knowledge (D18). -/
def Obligations.NumericItemIsItsNibbleBytes : Prop :=
  ∀ (s : State) (n : BitVec 4) (v : BitVec 16) (w : BitVec 32), s.tbuf.length = s.cfg.maxLen →
    expand [.n4 n] = [0#4 ++ n] ∧
    expand [.n16 v] =
      [0#4 ++ v.extractLsb' 12 4, 0#4 ++ v.extractLsb' 8 4, 0#4 ++ v.extractLsb' 4 4, 0#4 ++ v.extractLsb' 0 4] ∧
    expand [.n32 w] =
      [0#4 ++ w.extractLsb' 28 4, 0#4 ++ w.extractLsb' 24 4, 0#4 ++ w.extractLsb' 20 4, 0#4 ++ w.extractLsb' 16 4,
       0#4 ++ w.extractLsb' 12 4, 0#4 ++ w.extractLsb' 8 4, 0#4 ++ w.extractLsb' 4 4, 0#4 ++ w.extractLsb' 0 4] ∧
    (s.tlen + 1 ≤ s.cfg.maxLen → storeNibbles [n] s = .next (appended (expand [.n4 n]) s)) ∧
    (s.tlen + 4 ≤ s.cfg.maxLen →
      storeNibbles [v.extractLsb' 12 4, v.extractLsb' 8 4, v.extractLsb' 4 4, v.extractLsb' 0 4] s =
        .next (appended (expand [.n16 v]) s)) ∧
    (s.tlen + 8 ≤ s.cfg.maxLen →
      storeNibbles [w.extractLsb' 28 4, w.extractLsb' 24 4, w.extractLsb' 20 4, w.extractLsb' 16 4,
                    w.extractLsb' 12 4, w.extractLsb' 8 4, w.extractLsb' 4 4, w.extractLsb' 0 4] s =
        .next (appended (expand [.n32 w]) s))

/-! ## Received packets and framing outcomes (spec/40_framer.md, 41, 42, 45) -/

/-- In every mode the failures and a camera's Error end the operation with their kind and code, and nothing else
changes: the post-checks replace no failure (R134, R136, R137, R154, R155, R158, R267, R269). -/
def Obligations.FailuresEndEveryOperation : Prop :=
  ∀ (s : State) (first : Option Byte) (hdr code : Byte) (k : Nibble) (rest : List Byte),
    exec (.undersized first) s = .next (ended .undersized 0xFC s) ∧
    exec (.error hdr k code) s = .next (ended .error code s) ∧
    exec (.unknown hdr rest) s = .next (ended .unknown 0xFB s) ∧
    exec .oversized s = .next (ended .oversized 0xFD s) ∧
    (s.phase = .rxw → exec .timeout s = .next (ended .timeout 0xFE s)) ∧
    (s.phase = .rxw → exec .transportErr s = .next (ended .transportErr s.cfg.codeTransportError s))

/-- In RECV, WAIT and SEND a Reply and a Broadcast end the operation with success (R150, R157, R181). -/
def Obligations.RepliesEndUncheckedOperations : Prop :=
  ∀ (s : State) (hdr : Byte) (k : Nibble) (p rest : List Byte),
    s.mode = .recv ∨ s.mode = .wait ∨ s.mode = .send →
    exec (.reply hdr k p) s = .next (ended .reply 0x00 s) ∧
    exec (.broadcast rest) s = .next (ended .broadcast 0x00 s)

/-- An Acknowledge ends RECV with code 0xD0; in every other mode it is absorbed and the next packet is framed (R151,
R181). -/
def Obligations.AcknowledgeEndsRecvOnly : Prop :=
  ∀ (s : State) (hdr : Byte) (k : Nibble),
    (s.mode = .recv → exec (.ack hdr k) s = .next (ended .ack 0xD0 s)) ∧
    (s.mode ≠ .recv → exec (.ack hdr k) s = .next (framing { s with kind := .ack, result := 0xD0 }))

/-- The end of an INQ: a Reply of the latched shape's length is decoded, any other Reply and the successes that are
not Replies give UnexpectedPacket with `kind` as classified (R184). -/
def Obligations.InquiryDecodesItsReply : Prop :=
  ∀ (s : State) (hdr n : Byte) (k : Nibble) (p rest : List Byte), s.mode = .inq →
    (s.rlen = requiredLength s.shapeR →
      exec (.reply hdr k p) s = .next (ended .reply 0x00 (withFields s.shapeR s))) ∧
    (s.rlen ≠ requiredLength s.shapeR → exec (.reply hdr k p) s = .next (ended .reply 0xFA s)) ∧
    exec (.broadcast rest) s = .next (ended .broadcast 0xFA s) ∧
    (2 ≤ n.toNat → n.toNat ≤ 8 →
      exec (.addrEnumReply n) s =
        .next (ended .addrEnum 0xFA { s with camcnt := BitVec.ofNat 3 (n.toNat - 1) }))

/-- The end of an ASSIGN: only an enumeration reply with a count is a success (R233). -/
def Obligations.EnumerationNeedsACount : Prop :=
  ∀ (s : State) (hdr n : Byte) (k : Nibble) (p rest : List Byte), s.mode = .assign →
    exec (.reply hdr k p) s = .next (ended .reply 0xFA s) ∧
    exec (.broadcast rest) s = .next (ended .broadcast 0xFA s) ∧
    (2 ≤ n.toNat → n.toNat ≤ 8 →
      exec (.addrEnumReply n) s =
        .next (ended .addrEnum 0x00 { s with camcnt := BitVec.ofNat 3 (n.toNat - 1) }))

/-- Classifier rule 7, in every mode: of the packets `88 30 n FF` those with n from 2 to 8 record the count n - 1 and
latch AddressEnumerationReply, all others end in UNKNOWN, with the count kept; no other packet takes the rule (R156).
That an INQ reports the enumeration reply as unexpected is its post-check (R181, R184), the spec's own decision D21. -/
def Obligations.EnumerationReplyRecordsTheCount : Prop :=
  (∀ (s : State) (n : Byte),
    (2 ≤ n.toNat → n.toNat ≤ 8 →
      exec (classify [0x88, 0x30, n, 0xFF]) s =
        .next (ended .addrEnum (if s.mode = .inq then 0xFA else 0x00) { s with camcnt := BitVec.ofNat 3 (n.toNat - 1) })) ∧
    (n.toNat < 2 ∨ 8 < n.toNat → exec (classify [0x88, 0x30, n, 0xFF]) s = .next (ended .unknown 0xFB s))) ∧
  ∀ (p : List Byte) (n : Byte), classify p = .addrEnumReply n → ∃ b, p = [0x88, 0x30, n, b]

/-- Classifier rule 5: a bare terminator and a packet of one byte and the terminator end the operation, in every mode,
with UNDERSIZED; no longer packet does (R154). -/
def Obligations.ShortPacketsAreUndersized : Prop :=
  (∀ (s : State) (b : Byte),
    exec (classify [0xFF]) s = .next (ended .undersized 0xFC s) ∧
    exec (classify [b, 0xFF]) s = .next (ended .undersized 0xFC s)) ∧
  ∀ p : List Byte, (∃ f, classify p = .undersized f) ↔ p.length < 3

/-- A push packet is delivered to its registered handler with the camera index `(header >> 4) - 8`, or dropped and the
next packet framed; neither `kind`, `result` nor `camcnt` changes (R152, R153, R159, R264). -/
def Obligations.PushPacketsAreDeliveredOrDropped : Prop :=
  ∀ (s : State) (hdr i k : Byte), ∃ cam : BitVec 4, cam.toInt = ((hdr >>> 4).toNat : Int) - 8 ∧
    (s.irEn = true → exec (.pushIr hdr i k) s = .next (delivered (.irEvent cam i k) s)) ∧
    (s.irEn = false → exec (.pushIr hdr i k) s = .next (framing s)) ∧
    (s.netEn = true → exec (.pushNet hdr) s = .next (delivered (.netEvent cam) s)) ∧
    (s.netEn = false → exec (.pushNet hdr) s = .next (framing s))

/-! ## Events that are no row of the table -/

/-- A byte is stored at `rlen` and counted; the terminator ends the packet, which is classified in the same step, the
bound is tested after it, and otherwise the next byte is asked for (R132 to R135). -/
def Obligations.BytesAreStoredAndCounted : Prop :=
  ∀ (s : State) (b : Byte), s.phase = .rxw → s.rlen < s.cfg.maxLen → s.rbuf.length = s.cfg.maxLen →
    (b = 0xFF →
      onEvent (.rxRsp (.byte b)) s =
        exec (classify (s.rbuf.take s.rlen ++ [0xFF])) { s with rbuf := s.rbuf.set s.rlen 0xFF, rlen := s.rlen + 1 }) ∧
    (b ≠ 0xFF → s.rlen + 1 = s.cfg.maxLen →
      onEvent (.rxRsp (.byte b)) s =
        .next (ended .oversized 0xFD { s with rbuf := s.rbuf.set s.rlen b, rlen := s.cfg.maxLen })) ∧
    (b ≠ 0xFF → s.rlen + 1 < s.cfg.maxLen →
      onEvent (.rxRsp (.byte b)) s =
        .next { s with rbuf := s.rbuf.set s.rlen b, rlen := s.rlen + 1, outputs := s.outputs ++ [.rxReq] })

/-- A write that accepted fewer bytes than the packet has, none and a negative count among them, ends the operation
with WRITE_FAIL in every mode: no handshake, no byte read, no decode (R196). -/
def Obligations.ShortWriteEndsTheOperation : Prop :=
  ∀ (s : State) (w : Int), s.phase = .txw → w < s.tlen → onEvent (.txRsp w) s = .next (ended .writeFail 0xFF s)

/-- A write that accepted the packet starts the handshake, in every mode (R197). -/
def Obligations.CompleteWriteStartsTheHandshake : Prop :=
  ∀ (s : State) (w : Int), s.phase = .txw → (s.tlen : Int) ≤ w → onEvent (.txRsp w) s = .next (framing s)

/-- The return of a handler, in phase HDW only, starts the next packet and changes nothing else; until it comes the
block stays in HDW and asks for no byte (R160). That a step with nothing offered leaves the state as it was is the
model's reading of log 6, on the feeds of log 4. -/
def Obligations.HandlerReturnFramesTheNextPacket : Prop :=
  ∀ s : State,
    (s.phase = .hdw → onEvent .handlerReturn s = .next (framing s)) ∧
    (s.phase ≠ .hdw → onEvent .handlerReturn s = .next s) ∧
    (s.phase = .hdw → s.cfg.legal → s.rst = .silent → s.handlerReturns = .silent → step s = .next s)

/-- The event Reset, in any phase, gives every register R42 lists its value; it emits nothing, and it does not touch
the parameters or the transport's stream (R31, R42, R290, R291). That the answers to writes, the requests and the
handler returns still to come stand as they were is the model's reading of log 25, on the feeds of log 4. Of the
registers R42 leaves unspecified nothing is claimed (log 3). -/
def Obligations.ResetGivesTheListedValues : Prop :=
  ∀ s : State, ∃ t, onEvent .reset s = .next t ∧
    t.phase = .idle ∧ t.camcnt = 0 ∧ t.irEn = false ∧ t.netEn = false ∧ t.kind = .none ∧ t.result = 0x00 ∧
    t.rlen = 0 ∧ t.tlen = 0 ∧ success t.kind t.result = false ∧
    t.cfg = s.cfg ∧ t.outputs = s.outputs ∧ t.rxStream = s.rxStream ∧ t.txAnswers = s.txAnswers ∧
    t.requests = s.requests ∧ t.handlerReturns = s.handlerReturns ∧
    t.rbuf.length = s.cfg.maxLen ∧ t.tbuf.length = s.cfg.maxLen

/-! ## Decoding and the step -/

/-- A step runs the instruction that its event decodes to: a request by its code; a complete packet, with the byte
that completed it stored; an Empty or Error answer; the byte that fills the buffer. How events stand at the ports is
the model's choice, log 4 and log 7. -/
def Obligations.StepRunsTheDecodedInstruction : Prop :=
  ∀ s : State, s.cfg.legal → resetSampled s = false →
    (∀ r, s.phase = .idle → s.requests.head? = some r →
      step s = exec (decodeReq r) { s with requests := s.requests.rest, rst := s.rst.rest }) ∧
    (∀ i, s.phase = .rxw → BuffersWf s → s.rxStream.head? = some (.byte 0xFF) →
      decode s.cfg (.rx (s.rbuf.take s.rlen ++ [0xFF])) = .ok i →
      step s = exec i { s with rbuf := s.rbuf.set s.rlen 0xFF, rlen := s.rlen + 1, rxStream := s.rxStream.rest,
                               rst := s.rst.rest }) ∧
    (∀ b, s.phase = .rxw → s.rlen + 1 = s.cfg.maxLen → b ≠ 0xFF → s.rxStream.head? = some (.byte b) →
      step s = exec .oversized { s with rbuf := s.rbuf.set s.rlen b, rlen := s.rlen + 1, rxStream := s.rxStream.rest,
                                        rst := s.rst.rest }) ∧
    (s.phase = .rxw → s.rxStream.head? = some .empty →
      step s = exec .timeout { s with rxStream := s.rxStream.rest, rst := s.rst.rest }) ∧
    (s.phase = .rxw → s.rxStream.head? = some .error →
      step s = exec .transportErr { s with rxStream := s.rxStream.rest, rst := s.rst.rest })

/-- A row of the transmitted formats and of the abbreviations does what the request that performs it does, and a
DECODE request is its shape's row followed by the end of the operation. That the rows stand for these requests is the
model's choice, log 9 and log 11. -/
def Obligations.RowsRunThroughTheirRequests : Prop :=
  ∀ s : State,
    (∀ a p, exec (decodeReq { op := 3#3, addr := addrOperand a, items := literalItems p }) s = exec (.txGeneric a p) s) ∧
    (∀ a p, exec (decodeReq { op := 3#3, addr := addrOperand a, items := literalItems (0x01 :: p) }) s =
      exec (.command a p) s) ∧
    (∀ a sh p, exec (decodeReq { op := 4#3, addr := addrOperand a, shape := shapeCode sh,
                                 items := literalItems (0x09 :: p) }) s = exec (.inquiry a sh p) s) ∧
    (∀ i r, requestOf i = some r → (∀ n, i ≠ .nibbleByte n) → (∀ sh, i ≠ shapeInstr sh) →
      exec (decodeReq r) s = exec i s) ∧
    (∀ sh, s.phase = .idle → ∃ t, exec (shapeInstr sh) s = .next t ∧ exec (.decode sh) s = .next (finish t))

/-- Decoding the encoding of a well-formed instruction gives the instruction back, for every row and every operand. -/
def Obligations.DecodeInvertsEncode : Prop :=
  ∀ (prm : Params) (i : Instr), prm.legal → wellFormed prm i = true → decode prm (encode prm i) = .ok i

/-- Every received packet is the encoding of the well-formed instruction it is classified as: no byte of a packet is
dropped and no two packets read alike. -/
def Obligations.EncodeInvertsClassification : Prop :=
  ∀ (prm : Params) (p : List Byte) (i : Instr), decode prm (.rx p) = .ok i →
    wellFormed prm i = true ∧ encode prm i = .rx p

/-- Every transmitted packet is the encoding of the well-formed instruction its format names. Which format is named
where several fit is the model's choice, log 22. -/
def Obligations.EncodeInvertsTransmittedFormats : Prop :=
  ∀ (prm : Params) (sh : BitVec 2) (p : List Byte) (i : Instr), decode prm (.tx sh p) = .ok i →
    wellFormed prm i = true ∧ ∃ c, encode prm i = .tx c p

/-- The nine rules tried in order pick, for every received packet, the first row of the mask and match map that takes
it (R117 against R161). -/
def Obligations.ClassificationMapAgreesWithTheRules : Prop :=
  ∀ (prm : Params) (p : List Byte) (i : Instr), decode prm (.rx p) = .ok i →
    rxRows.findIdx (fun r => r.takes p) = rxRowOf i

/-- Words of the table decode to their rows. How a word is completed to a packet is the model's choice, log 8. -/
def Obligations.TableWordsDecodeToTheirRows : Prop :=
  decodeTableWord 32 0x90500000 = some (.reply 0x90 0 [0, 0]) ∧
  decodeTableWord 32 0x00077D02 = some (.pushIr 0 0 0) ∧
  decodeTableWord 32 0x90604100 = some (.error 0x90 0 0x41) ∧
  decodeTableWord 32 0x88300400 = some (.addrEnumReply 4) ∧
  decodeTableWord 16 0x8101 = some (.command 1 []) ∧
  decodeTableWord 16 0x8225 = some (.cancel 2 5) ∧
  decodeTableWord 8 6 = some .assign ∧
  decodeTableWord 16 2 = some .shapeS16x2

/-! ## Invariants and runs -/

/-- Every step keeps the invariant of Safety.lean. -/
def Obligations.StepKeepsTheInvariant : Prop :=
  ∀ s t : State, Inv s → step s = .next t → Inv t

/-- The invariant holds after reset. The invariant names none of the registers whose reset value is the model's choice
(log 2) but the lengths of the buffers. -/
def Obligations.ResetHasTheInvariant : Prop := Inv State.reset

/-- Under the invariant a step goes on, but for one refusal: a request whose payload is longer than MAXLEN - 2; no store
is out of range, so it never faults (R84). R199 and R281 say so of SEND and INQ; that an ASSIGN whose parameter payload is
too long is refused alike is the model's choice of log 17. -/
def Obligations.StepsStopOnlyOnOverlongRequests : Prop :=
  ∀ s : State, Inv s →
    (∃ t, step s = .next t) ∨
    (step s = .refused .payloadTooLong ∧ s.phase = .idle ∧ ∃ r, s.requests.head? = some r ∧
      (((r.op = 3#3 ∨ r.op = 4#3) ∧ s.cfg.maxLen < (expand r.items).length + 2) ∨
       (r.op = 6#3 ∧ s.cfg.maxLen < s.cfg.addrsetPayload.length + 2)))

/-- The steps from the start of a packet compute the framing function of the answers the transport gives, and end by
running the instruction it names, with the packet in the buffer and one read issued for each byte (R138). That the bytes
of rbuf beyond the packet keep their values is the model's choice of log 12. -/
def Obligations.StepsComputeTheFramingFunction : Prop :=
  ∀ (s : State) (out : FrameEnd) (bytes : List Byte) (rest : Feed RxAnswer),
    s.cfg.legal → BuffersWf s → s.phase = .rxw → s.rlen = 0 → s.rst = .silent →
    frameFn s.cfg.maxLen [] s.rxStream = some (out, bytes, rest) →
    Host.Core.run Sys2Proof.core (frameAnswers out bytes) s =
      exec (frameInstr out bytes)
        { s with rbuf := bytes ++ s.rbuf.drop bytes.length, rlen := bytes.length, rxStream := rest,
                 outputs := s.outputs ++ List.replicate (frameReads out bytes) .rxReq }

/-- In every mode the steps from the start of the handshake compute the handshake function of the transport's answers,
and then make the post-check of the mode: the same end, the same bytes, the count recorded, the push events delivered in
order, for an INQ the values decoded (R181, R184, R187, R233). In RECV mode an Acknowledge is returned. What the ports
will offer stands in the feeds of log 4. -/
def Obligations.StepsComputeTheHandshakeFunction : Prop :=
  ∀ (s : State) (fuel : Nat) (e : HandshakeEnd),
    Inv s → s.phase = .rxw → s.rlen = 0 → s.rst = .silent →
    handshakeFn s.cfg s.mode s.irEn s.netEn fuel s.rxStream [] = some e → s.handlerReturns.enough e.events.length →
    ∃ (n : Nat) (t : State), Host.Core.run Sys2Proof.core n s = .next t ∧
      HandshakeReported s s.mode s.shapeR e t ∧ t.tbuf = s.tbuf ∧ t.tlen = s.tlen

/-- Acknowledges in any number, one after another, never end a handshake: after all of them the block still waits for
a packet (R181, R183). -/
def Obligations.AcknowledgesNeverEndTheHandshake : Prop :=
  ∀ (s : State) (acks : List (Byte × Nibble)) (rest : List RxAnswer),
    s.cfg.legal → BuffersWf s → s.phase = .rxw → s.rlen = 0 → s.rst = .silent →
    s.mode ≠ .recv → (∀ a ∈ acks, a.1 ≠ 0xFF) →
    s.rxStream.once = (acks.flatMap fun a => [.byte a.1, .byte (4#4 ++ a.2 : Byte), .byte 0xFF]) ++ rest →
    ∃ t, Host.Core.run Sys2Proof.core (3 * acks.length) s = .next t ∧
      t.phase = .rxw ∧ t.rlen = 0 ∧ t.mode = s.mode ∧ t.rxStream = { s.rxStream with once := rest } ∧
      t.camcnt = s.camcnt ∧
      t.tbuf = s.tbuf ∧ t.val0 = s.val0 ∧ t.val1 = s.val1

/-- An operation can hang in three ways, and the block itself never ends it (R183, R278). Where the transport or the
handler never answers, it waits where it is. Where the stream supplies packets that end nothing, over and over without
end (Acknowledges in a looping mode, push messages in any, their handlers returning each time), the block takes step
after step, each with one output event, and is busy after every one of them. That endless answers stand in the state
as a pattern over and over is the model's choice of log 29. That a step with nothing offered leaves the state as it
was is the model's reading of log 6. -/
def Obligations.OperationsHangWithoutATerminalAnswer : Prop :=
  (∀ s : State, s.cfg.legal → s.rst = .silent →
    (s.phase = .rxw ∧ s.rxStream = .silent) ∨ (s.phase = .txw ∧ s.txAnswers = .silent) ∨
      (s.phase = .hdw ∧ s.handlerReturns = .silent) →
    ∀ n, Host.Core.run Sys2Proof.core n s = .next s) ∧
  (∀ (s : State) (packets : List (List Byte)),
    s.cfg.legal → BuffersWf s → s.phase = .rxw → s.rlen = 0 → s.rst = .silent → packets ≠ [] →
    (∀ p ∈ packets, Absorbed s.mode p ∧ p.length ≤ s.cfg.maxLen) →
    s.rxStream = { forever := packets.flatten.map .byte } →
    (s.irEn = true ∨ s.netEn = true → s.handlerReturns.forever ≠ []) →
    ∀ n, ∃ t, Host.Core.run Sys2Proof.core n s = .next t ∧ busy t = true ∧ t.mode = s.mode ∧
      t.outputs.length = s.outputs.length + n ∧ t.camcnt = s.camcnt ∧ t.val0 = s.val0 ∧ t.val1 = s.val1)

/-- A SEND whose packet is written whole runs the handshake and ends as it does: with the request, the count of the
write and the answers of the transport at the ports (the feeds of log 4), the block reaches a Done with the handshake's
kind and code, the packet sent still in the transmit buffer (R187, R190, R195, R197). -/
def Obligations.SendExchangeEndsAsItsHandshake : Prop :=
  ∀ (s : State) (r : ReqSignals) (w : Int) (fuel : Nat) (e : HandshakeEnd),
    Inv s → s.phase = .idle → s.rst = .silent → s.requests.head? = some r → r.op = 3#3 →
    s.txAnswers.head? = some w → (expand r.items).length + 2 ≤ s.cfg.maxLen → ((expand r.items).length : Int) + 2 ≤ w →
    handshakeFn s.cfg .send s.irEn s.netEn fuel s.rxStream [] = some e → s.handlerReturns.enough e.events.length →
    ∃ (n : Nat) (t : State), Host.Core.run Sys2Proof.core n s = .next t ∧
      HandshakeReported s .send s.shapeR e t ∧
      t.tbuf.take t.tlen = ((0x80 ||| (r.addr &&& 0x0F)) :: expand r.items) ++ [0xFF]

/-- An INQ whose packet is written whole runs the handshake and ends with its post-check: a Reply of the requested shape
is decoded into the value registers, another success is UnexpectedPacket, a failure stays as it is (R184, R187, R191,
R195, R197). The request and the answers stand in the feeds of log 4. -/
def Obligations.InqExchangeEndsWithItsPostCheck : Prop :=
  ∀ (s : State) (r : ReqSignals) (w : Int) (fuel : Nat) (e : HandshakeEnd),
    Inv s → s.phase = .idle → s.rst = .silent → s.requests.head? = some r → r.op = 4#3 →
    s.txAnswers.head? = some w → (expand r.items).length + 2 ≤ s.cfg.maxLen → ((expand r.items).length : Int) + 2 ≤ w →
    handshakeFn s.cfg .inq s.irEn s.netEn fuel s.rxStream [] = some e → s.handlerReturns.enough e.events.length →
    ∃ (n : Nat) (t : State), Host.Core.run Sys2Proof.core n s = .next t ∧
      HandshakeReported s .inq (shapeOfCode r.shape) e t ∧
      t.tbuf.take t.tlen = ((0x80 ||| (r.addr &&& 0x0F)) :: expand r.items) ++ [0xFF]

/-- An ASSIGN whose packet is written whole runs the handshake and ends with its post-check: an enumeration reply with a
count is the success and leaves the count, another success is UnexpectedPacket, a failure stays as it is (R187, R195,
R197, R230, R233). The request and the answers stand in the feeds of log 4. -/
def Obligations.AssignExchangeEndsWithItsPostCheck : Prop :=
  ∀ (s : State) (r : ReqSignals) (w : Int) (fuel : Nat) (e : HandshakeEnd),
    Inv s → s.phase = .idle → s.rst = .silent → s.requests.head? = some r → r.op = 6#3 →
    s.txAnswers.head? = some w → s.cfg.addrsetPayload.length + 2 ≤ s.cfg.maxLen → (s.cfg.addrsetPayload.length : Int) + 2 ≤ w →
    handshakeFn s.cfg .assign s.irEn s.netEn fuel s.rxStream [] = some e → s.handlerReturns.enough e.events.length →
    ∃ (n : Nat) (t : State), Host.Core.run Sys2Proof.core n s = .next t ∧
      HandshakeReported s .assign s.shapeR e t ∧
      t.tbuf.take t.tlen = (0x88 :: s.cfg.addrsetPayload) ++ [0xFF]

/-! ## Rules of the whole machine -/

/-- The camera count changes only at Reset, to 0, or where a valid enumeration reply is completed, to its count
(R29, R44, R156, R239). -/
def Obligations.CameraCountHasOneWriter : Prop :=
  ∀ s t : State, Inv s → step s = .next t → t.camcnt ≠ s.camcnt →
    (resetSampled s = true ∧ t.camcnt = 0) ∨
    (s.phase = .rxw ∧ ∃ n, s.rxStream.head? = some (.byte 0xFF) ∧ rxPacket s = [0x88, 0x30, n] ∧
      2 ≤ n.toNat ∧ n.toNat ≤ 8 ∧ t.camcnt.toNat = n.toNat - 1)

/-- The handler enables change only at Reset or by an accepted SETH request (R30, R44, R81). -/
def Obligations.HandlersAreRegisteredBySethOnly : Prop :=
  ∀ s t : State, step s = .next t → t.irEn ≠ s.irEn ∨ t.netEn ≠ s.netEn →
    (resetSampled s = true ∧ t.irEn = false ∧ t.netEn = false) ∨
    (s.phase = .idle ∧ ∃ r, s.requests.head? = some r ∧ r.op = 7#3 ∧ t.irEn = r.irEn ∧ t.netEn = r.netEn)

/-- A step takes at most one answer of the receive stream, and only in phase RXW: none while idle, while a write is
answered or while a handler runs (R62, R63, R77, R79). -/
def Obligations.StreamIsReadOneAnswerAtATime : Prop :=
  ∀ s t : State, step s = .next t →
    t.rxStream = s.rxStream ∨ (s.phase = .rxw ∧ resetSampled s = false ∧
      (∃ a, s.rxStream.head? = some a) ∧ t.rxStream = s.rxStream.rest)

/-- The receive buffer changes only at Reset or at index `rlen` by the byte the transport answered (R20, R60). -/
def Obligations.ReceiveBufferIsWrittenByFramingOnly : Prop :=
  ∀ s t : State, step s = .next t →
    t.rbuf = s.rbuf ∨ resetSampled s = true ∨
    (s.phase = .rxw ∧ ∃ b, s.rxStream.head? = some (.byte b) ∧ t.rbuf = s.rbuf.set s.rlen b)

/-- The transmit buffer and its length change only at Reset or where an operation is accepted that writes; the
parameters never change (R22, R44, R31). -/
def Obligations.TransmitBufferIsWrittenByTheEncoderOnly : Prop :=
  ∀ s t : State, step s = .next t →
    t.cfg = s.cfg ∧
    ((t.tbuf = s.tbuf ∧ t.tlen = s.tlen) ∨ resetSampled s = true ∨
      (s.phase = .idle ∧ t.phase = .txw ∧ t.outputs = s.outputs ++ [.txReq (t.tbuf.take t.tlen)]))

/-- The decoded values change only at Reset, by DECODE, or at the end of an INQ (R23, R44). -/
def Obligations.DecodedValuesAreWrittenByTheDecoderOnly : Prop :=
  ∀ s t : State, step s = .next t → t.val0 ≠ s.val0 ∨ t.val1 ≠ s.val1 →
    resetSampled s = true ∨
    (t.phase = .idle ∧ t.kind = .reply ∧ t.result = 0x00 ∧
      ((s.phase = .idle ∧ ∃ r, s.requests.head? = some r ∧ r.op = 5#3) ∨ (s.phase = .rxw ∧ s.mode = .inq)))

/-- A step emits at most one output event (R267). -/
def Obligations.StepsEmitAtMostOneEvent : Prop :=
  ∀ s t : State, step s = .next t → t.outputs = s.outputs ∨ ∃ o, t.outputs = s.outputs ++ [o]

/-- An operation in progress ends with exactly one Done, carrying the kind and result the status port shows (R37,
R140). -/
def Obligations.OperationsEndWithDone : Prop :=
  ∀ s t : State, step s = .next t → s.phase ≠ .idle → t.phase = .idle → resetSampled s = false →
    t.outputs = s.outputs ++ [.done t.kind t.result]

/-- Success at the end of an ASSIGN means an enumeration reply and a count of 1 to 7 (R233). -/
def Obligations.AssignSuccessMeansACount : Prop :=
  ∀ s t : State, Inv s → step s = .next t → s.phase ≠ .idle → t.phase = .idle → resetSampled s = false →
    s.mode = .assign → success t.kind t.result = true →
    t.kind = .addrEnum ∧ 1 ≤ t.camcnt.toNat ∧ t.camcnt.toNat ≤ 7

/-- Success at the end of an INQ means a Reply of the declared shape, decoded into the value registers (R184). -/
def Obligations.InqSuccessMeansDecodedValues : Prop :=
  ∀ s t : State, step s = .next t → s.phase ≠ .idle → t.phase = .idle → resetSampled s = false →
    s.mode = .inq → success t.kind t.result = true →
    t.kind = .reply ∧ t.rlen = requiredLength s.shapeR ∧
    t.val0 = (withFields s.shapeR t).val0 ∧ t.val1 = (withFields s.shapeR t).val1

/-- The status port shows the registers (R36, R37): `busy` in every phase but IDLE, `kind` by its code (R27), the
single values as they stand, of the receive buffer the packet's own bytes, whatever the bytes beyond it are (R34), and
the bytes of the transmitted packet; `phase` and `mode` have the codes of R24 and R25. Beyond the packet the port
shows a free value (log 12). That val0 and val1 on the port are the register bits in every state is the model's choice
of log 24: R23 makes them meaningful only after a DECODE or an INQ that succeeded. -/
def Obligations.StatusPortShowsThePacket : Prop :=
  (∀ s : State,
    (busy s = true ↔ s.phase ≠ .idle) ∧ (status s).busy = busy s ∧
    (∀ i k, kindsInOrder[i]? = some k → s.kind = k → (status s).kind.toNat = i) ∧ s.kind ∈ kindsInOrder ∧
    (status s).result = s.result ∧ (status s).rlen = s.rlen ∧ (status s).val0 = s.val0 ∧ (status s).val1 = s.val1 ∧
    (status s).camcnt = s.camcnt ∧ (status s).irEn = s.irEn ∧ (status s).netEn = s.netEn ∧ (status s).tlen = s.tlen ∧
    (∀ i, i < s.rlen → s.rlen ≤ s.rbuf.length → (rxPacket s)[i]? = some (statusRbuf s i)) ∧
    (∀ i, i < s.tlen → s.tlen ≤ s.tbuf.length → (s.tbuf.take s.tlen)[i]? = some (statusTbuf s i))) ∧
  [Phase.idle, .txw, .rxw, .hdw].map phaseCode = [0, 1, 2, 3] ∧
  [Mode.recv, .wait, .send, .inq, .assign].map modeCode = [1, 2, 3, 4, 6]

/-- The receive port (R38): the status codes 0, 1 and 2 are a byte, Empty and Error, and each answer has one of them; a
one-byte read that returns 1, 0 or a negative value is that answer; an answer is accepted in phase RXW only, where Empty
and Error end the framing. That code 3 carries no answer is the model's choice of log 30. -/
def Obligations.ReceivePortCodesAreTheAnswers : Prop :=
  (∀ b : Byte, rxAnswerOf 0#2 b = some (.byte b) ∧ rxAnswerOf 1#2 b = some .empty ∧ rxAnswerOf 2#2 b = some .error ∧
    rxAnswerOf 3#2 b = none ∧ rxAnswerOf (rxStatus (.byte b)) b = some (.byte b) ∧
    rxAnswerOf (rxStatus .empty) b = some .empty ∧ rxAnswerOf (rxStatus .error) b = some .error ∧
    rxAnswerOfRead 1 b = rxAnswerOf 0#2 b ∧ rxAnswerOfRead 0 b = rxAnswerOf 1#2 b ∧
    ∀ n : Int, n < 0 → rxAnswerOfRead n b = rxAnswerOf 2#2 b) ∧
  ∀ (s : State) (code : BitVec 2) (b : Byte) (a : RxAnswer), rxAnswerOf code b = some a →
    (s.phase ≠ .rxw → onEvent (.rxRsp a) s = .next s) ∧
    (s.phase = .rxw → code = 1#2 → onEvent (.rxRsp a) s = .next (ended .timeout 0xFE s)) ∧
    (s.phase = .rxw → code = 2#2 → onEvent (.rxRsp a) s = .next (ended .transportErr s.cfg.codeTransportError s))
end

