-- ==== Sys2Proof/Laws/State.lean ====
section
/-! SUPPORT. One lemma for each field of State and each elementary update of Machine/Ops.lean and Machine/Events.lean:
what the update leaves in the field. -/

namespace Sys2Proof.Machine

@[simp] theorem emit_cfg (o : Output) (s : State) : (emit o s).cfg = s.cfg := rfl
@[simp] theorem emit_rbuf (o : Output) (s : State) : (emit o s).rbuf = s.rbuf := rfl
@[simp] theorem emit_rlen (o : Output) (s : State) : (emit o s).rlen = s.rlen := rfl
@[simp] theorem emit_tbuf (o : Output) (s : State) : (emit o s).tbuf = s.tbuf := rfl
@[simp] theorem emit_tlen (o : Output) (s : State) : (emit o s).tlen = s.tlen := rfl
@[simp] theorem emit_val0 (o : Output) (s : State) : (emit o s).val0 = s.val0 := rfl
@[simp] theorem emit_val1 (o : Output) (s : State) : (emit o s).val1 = s.val1 := rfl
@[simp] theorem emit_phase (o : Output) (s : State) : (emit o s).phase = s.phase := rfl
@[simp] theorem emit_mode (o : Output) (s : State) : (emit o s).mode = s.mode := rfl
@[simp] theorem emit_shapeR (o : Output) (s : State) : (emit o s).shapeR = s.shapeR := rfl
@[simp] theorem emit_kind (o : Output) (s : State) : (emit o s).kind = s.kind := rfl
@[simp] theorem emit_result (o : Output) (s : State) : (emit o s).result = s.result := rfl
@[simp] theorem emit_camcnt (o : Output) (s : State) : (emit o s).camcnt = s.camcnt := rfl
@[simp] theorem emit_irEn (o : Output) (s : State) : (emit o s).irEn = s.irEn := rfl
@[simp] theorem emit_netEn (o : Output) (s : State) : (emit o s).netEn = s.netEn := rfl
@[simp] theorem emit_requests (o : Output) (s : State) : (emit o s).requests = s.requests := rfl
@[simp] theorem emit_rxStream (o : Output) (s : State) : (emit o s).rxStream = s.rxStream := rfl
@[simp] theorem emit_txAnswers (o : Output) (s : State) : (emit o s).txAnswers = s.txAnswers := rfl
@[simp] theorem emit_handlerReturns (o : Output) (s : State) : (emit o s).handlerReturns = s.handlerReturns := rfl
@[simp] theorem emit_rst (o : Output) (s : State) : (emit o s).rst = s.rst := rfl
@[simp] theorem emit_outputs (o : Output) (s : State) : (emit o s).outputs = s.outputs ++ [o] := rfl
@[simp] theorem emit_freeCount (o : Output) (s : State) : (emit o s).freeCount = s.freeCount := rfl

@[simp] theorem startFrame_cfg (s : State) : (startFrame s).cfg = s.cfg := rfl
@[simp] theorem startFrame_rbuf (s : State) : (startFrame s).rbuf = s.rbuf := rfl
@[simp] theorem startFrame_rlen (s : State) : (startFrame s).rlen = 0 := rfl
@[simp] theorem startFrame_tbuf (s : State) : (startFrame s).tbuf = s.tbuf := rfl
@[simp] theorem startFrame_tlen (s : State) : (startFrame s).tlen = s.tlen := rfl
@[simp] theorem startFrame_val0 (s : State) : (startFrame s).val0 = s.val0 := rfl
@[simp] theorem startFrame_val1 (s : State) : (startFrame s).val1 = s.val1 := rfl
@[simp] theorem startFrame_phase (s : State) : (startFrame s).phase = .rxw := rfl
@[simp] theorem startFrame_mode (s : State) : (startFrame s).mode = s.mode := rfl
@[simp] theorem startFrame_shapeR (s : State) : (startFrame s).shapeR = s.shapeR := rfl
@[simp] theorem startFrame_kind (s : State) : (startFrame s).kind = s.kind := rfl
@[simp] theorem startFrame_result (s : State) : (startFrame s).result = s.result := rfl
@[simp] theorem startFrame_camcnt (s : State) : (startFrame s).camcnt = s.camcnt := rfl
@[simp] theorem startFrame_irEn (s : State) : (startFrame s).irEn = s.irEn := rfl
@[simp] theorem startFrame_netEn (s : State) : (startFrame s).netEn = s.netEn := rfl
@[simp] theorem startFrame_requests (s : State) : (startFrame s).requests = s.requests := rfl
@[simp] theorem startFrame_rxStream (s : State) : (startFrame s).rxStream = s.rxStream := rfl
@[simp] theorem startFrame_txAnswers (s : State) : (startFrame s).txAnswers = s.txAnswers := rfl
@[simp] theorem startFrame_handlerReturns (s : State) : (startFrame s).handlerReturns = s.handlerReturns := rfl
@[simp] theorem startFrame_rst (s : State) : (startFrame s).rst = s.rst := rfl
@[simp] theorem startFrame_outputs (s : State) : (startFrame s).outputs = s.outputs ++ [.rxReq] := rfl
@[simp] theorem startFrame_freeCount (s : State) : (startFrame s).freeCount = s.freeCount := rfl

@[simp] theorem finish_cfg (s : State) : (finish s).cfg = s.cfg := rfl
@[simp] theorem finish_rbuf (s : State) : (finish s).rbuf = s.rbuf := rfl
@[simp] theorem finish_rlen (s : State) : (finish s).rlen = s.rlen := rfl
@[simp] theorem finish_tbuf (s : State) : (finish s).tbuf = s.tbuf := rfl
@[simp] theorem finish_tlen (s : State) : (finish s).tlen = s.tlen := rfl
@[simp] theorem finish_val0 (s : State) : (finish s).val0 = s.val0 := rfl
@[simp] theorem finish_val1 (s : State) : (finish s).val1 = s.val1 := rfl
@[simp] theorem finish_phase (s : State) : (finish s).phase = .idle := rfl
@[simp] theorem finish_mode (s : State) : (finish s).mode = s.mode := rfl
@[simp] theorem finish_shapeR (s : State) : (finish s).shapeR = s.shapeR := rfl
@[simp] theorem finish_kind (s : State) : (finish s).kind = s.kind := rfl
@[simp] theorem finish_result (s : State) : (finish s).result = s.result := rfl
@[simp] theorem finish_camcnt (s : State) : (finish s).camcnt = s.camcnt := rfl
@[simp] theorem finish_irEn (s : State) : (finish s).irEn = s.irEn := rfl
@[simp] theorem finish_netEn (s : State) : (finish s).netEn = s.netEn := rfl
@[simp] theorem finish_requests (s : State) : (finish s).requests = s.requests := rfl
@[simp] theorem finish_rxStream (s : State) : (finish s).rxStream = s.rxStream := rfl
@[simp] theorem finish_txAnswers (s : State) : (finish s).txAnswers = s.txAnswers := rfl
@[simp] theorem finish_handlerReturns (s : State) : (finish s).handlerReturns = s.handlerReturns := rfl
@[simp] theorem finish_rst (s : State) : (finish s).rst = s.rst := rfl
@[simp] theorem finish_outputs (s : State) : (finish s).outputs = s.outputs ++ [.done s.kind s.result] := rfl
@[simp] theorem finish_freeCount (s : State) : (finish s).freeCount = s.freeCount := rfl

@[simp] theorem latch_cfg (k : Kind) (c : Byte) (s : State) : (latch k c s).cfg = s.cfg := rfl
@[simp] theorem latch_rbuf (k : Kind) (c : Byte) (s : State) : (latch k c s).rbuf = s.rbuf := rfl
@[simp] theorem latch_rlen (k : Kind) (c : Byte) (s : State) : (latch k c s).rlen = s.rlen := rfl
@[simp] theorem latch_tbuf (k : Kind) (c : Byte) (s : State) : (latch k c s).tbuf = s.tbuf := rfl
@[simp] theorem latch_tlen (k : Kind) (c : Byte) (s : State) : (latch k c s).tlen = s.tlen := rfl
@[simp] theorem latch_val0 (k : Kind) (c : Byte) (s : State) : (latch k c s).val0 = s.val0 := rfl
@[simp] theorem latch_val1 (k : Kind) (c : Byte) (s : State) : (latch k c s).val1 = s.val1 := rfl
@[simp] theorem latch_phase (k : Kind) (c : Byte) (s : State) : (latch k c s).phase = s.phase := rfl
@[simp] theorem latch_mode (k : Kind) (c : Byte) (s : State) : (latch k c s).mode = s.mode := rfl
@[simp] theorem latch_shapeR (k : Kind) (c : Byte) (s : State) : (latch k c s).shapeR = s.shapeR := rfl
@[simp] theorem latch_kind (k : Kind) (c : Byte) (s : State) : (latch k c s).kind = k := rfl
@[simp] theorem latch_result (k : Kind) (c : Byte) (s : State) : (latch k c s).result = c := rfl
@[simp] theorem latch_camcnt (k : Kind) (c : Byte) (s : State) : (latch k c s).camcnt = s.camcnt := rfl
@[simp] theorem latch_irEn (k : Kind) (c : Byte) (s : State) : (latch k c s).irEn = s.irEn := rfl
@[simp] theorem latch_netEn (k : Kind) (c : Byte) (s : State) : (latch k c s).netEn = s.netEn := rfl
@[simp] theorem latch_requests (k : Kind) (c : Byte) (s : State) : (latch k c s).requests = s.requests := rfl
@[simp] theorem latch_rxStream (k : Kind) (c : Byte) (s : State) : (latch k c s).rxStream = s.rxStream := rfl
@[simp] theorem latch_txAnswers (k : Kind) (c : Byte) (s : State) : (latch k c s).txAnswers = s.txAnswers := rfl
@[simp] theorem latch_handlerReturns (k : Kind) (c : Byte) (s : State) : (latch k c s).handlerReturns = s.handlerReturns := rfl
@[simp] theorem latch_rst (k : Kind) (c : Byte) (s : State) : (latch k c s).rst = s.rst := rfl
@[simp] theorem latch_outputs (k : Kind) (c : Byte) (s : State) : (latch k c s).outputs = s.outputs := rfl
@[simp] theorem latch_freeCount (k : Kind) (c : Byte) (s : State) : (latch k c s).freeCount = s.freeCount := rfl

@[simp] theorem storeByte_cfg (b : Byte) (s : State) : (storeByte b s).cfg = s.cfg := rfl
@[simp] theorem storeByte_rbuf (b : Byte) (s : State) : (storeByte b s).rbuf = s.rbuf.set s.rlen b := rfl
@[simp] theorem storeByte_rlen (b : Byte) (s : State) : (storeByte b s).rlen = s.rlen + 1 := rfl
@[simp] theorem storeByte_tbuf (b : Byte) (s : State) : (storeByte b s).tbuf = s.tbuf := rfl
@[simp] theorem storeByte_tlen (b : Byte) (s : State) : (storeByte b s).tlen = s.tlen := rfl
@[simp] theorem storeByte_val0 (b : Byte) (s : State) : (storeByte b s).val0 = s.val0 := rfl
@[simp] theorem storeByte_val1 (b : Byte) (s : State) : (storeByte b s).val1 = s.val1 := rfl
@[simp] theorem storeByte_phase (b : Byte) (s : State) : (storeByte b s).phase = s.phase := rfl
@[simp] theorem storeByte_mode (b : Byte) (s : State) : (storeByte b s).mode = s.mode := rfl
@[simp] theorem storeByte_shapeR (b : Byte) (s : State) : (storeByte b s).shapeR = s.shapeR := rfl
@[simp] theorem storeByte_kind (b : Byte) (s : State) : (storeByte b s).kind = s.kind := rfl
@[simp] theorem storeByte_result (b : Byte) (s : State) : (storeByte b s).result = s.result := rfl
@[simp] theorem storeByte_camcnt (b : Byte) (s : State) : (storeByte b s).camcnt = s.camcnt := rfl
@[simp] theorem storeByte_irEn (b : Byte) (s : State) : (storeByte b s).irEn = s.irEn := rfl
@[simp] theorem storeByte_netEn (b : Byte) (s : State) : (storeByte b s).netEn = s.netEn := rfl
@[simp] theorem storeByte_requests (b : Byte) (s : State) : (storeByte b s).requests = s.requests := rfl
@[simp] theorem storeByte_rxStream (b : Byte) (s : State) : (storeByte b s).rxStream = s.rxStream := rfl
@[simp] theorem storeByte_txAnswers (b : Byte) (s : State) : (storeByte b s).txAnswers = s.txAnswers := rfl
@[simp] theorem storeByte_handlerReturns (b : Byte) (s : State) : (storeByte b s).handlerReturns = s.handlerReturns := rfl
@[simp] theorem storeByte_rst (b : Byte) (s : State) : (storeByte b s).rst = s.rst := rfl
@[simp] theorem storeByte_outputs (b : Byte) (s : State) : (storeByte b s).outputs = s.outputs := rfl
@[simp] theorem storeByte_freeCount (b : Byte) (s : State) : (storeByte b s).freeCount = s.freeCount := rfl

@[simp] theorem putByte_cfg (s : State) (b : Byte) : (putByte s b).cfg = s.cfg := rfl
@[simp] theorem putByte_rbuf (s : State) (b : Byte) : (putByte s b).rbuf = s.rbuf := rfl
@[simp] theorem putByte_rlen (s : State) (b : Byte) : (putByte s b).rlen = s.rlen := rfl
@[simp] theorem putByte_tbuf (s : State) (b : Byte) : (putByte s b).tbuf = s.tbuf.set s.tlen b := rfl
@[simp] theorem putByte_tlen (s : State) (b : Byte) : (putByte s b).tlen = s.tlen + 1 := rfl
@[simp] theorem putByte_val0 (s : State) (b : Byte) : (putByte s b).val0 = s.val0 := rfl
@[simp] theorem putByte_val1 (s : State) (b : Byte) : (putByte s b).val1 = s.val1 := rfl
@[simp] theorem putByte_phase (s : State) (b : Byte) : (putByte s b).phase = s.phase := rfl
@[simp] theorem putByte_mode (s : State) (b : Byte) : (putByte s b).mode = s.mode := rfl
@[simp] theorem putByte_shapeR (s : State) (b : Byte) : (putByte s b).shapeR = s.shapeR := rfl
@[simp] theorem putByte_kind (s : State) (b : Byte) : (putByte s b).kind = s.kind := rfl
@[simp] theorem putByte_result (s : State) (b : Byte) : (putByte s b).result = s.result := rfl
@[simp] theorem putByte_camcnt (s : State) (b : Byte) : (putByte s b).camcnt = s.camcnt := rfl
@[simp] theorem putByte_irEn (s : State) (b : Byte) : (putByte s b).irEn = s.irEn := rfl
@[simp] theorem putByte_netEn (s : State) (b : Byte) : (putByte s b).netEn = s.netEn := rfl
@[simp] theorem putByte_requests (s : State) (b : Byte) : (putByte s b).requests = s.requests := rfl
@[simp] theorem putByte_rxStream (s : State) (b : Byte) : (putByte s b).rxStream = s.rxStream := rfl
@[simp] theorem putByte_txAnswers (s : State) (b : Byte) : (putByte s b).txAnswers = s.txAnswers := rfl
@[simp] theorem putByte_handlerReturns (s : State) (b : Byte) : (putByte s b).handlerReturns = s.handlerReturns := rfl
@[simp] theorem putByte_rst (s : State) (b : Byte) : (putByte s b).rst = s.rst := rfl
@[simp] theorem putByte_outputs (s : State) (b : Byte) : (putByte s b).outputs = s.outputs := rfl
@[simp] theorem putByte_freeCount (s : State) (b : Byte) : (putByte s b).freeCount = s.freeCount := rfl

@[simp] theorem issueWrite_cfg (s : State) : (issueWrite s).cfg = s.cfg := rfl
@[simp] theorem issueWrite_rbuf (s : State) : (issueWrite s).rbuf = s.rbuf := rfl
@[simp] theorem issueWrite_rlen (s : State) : (issueWrite s).rlen = s.rlen := rfl
@[simp] theorem issueWrite_tbuf (s : State) : (issueWrite s).tbuf = s.tbuf := rfl
@[simp] theorem issueWrite_tlen (s : State) : (issueWrite s).tlen = s.tlen := rfl
@[simp] theorem issueWrite_val0 (s : State) : (issueWrite s).val0 = s.val0 := rfl
@[simp] theorem issueWrite_val1 (s : State) : (issueWrite s).val1 = s.val1 := rfl
@[simp] theorem issueWrite_phase (s : State) : (issueWrite s).phase = .txw := rfl
@[simp] theorem issueWrite_mode (s : State) : (issueWrite s).mode = s.mode := rfl
@[simp] theorem issueWrite_shapeR (s : State) : (issueWrite s).shapeR = s.shapeR := rfl
@[simp] theorem issueWrite_kind (s : State) : (issueWrite s).kind = s.kind := rfl
@[simp] theorem issueWrite_result (s : State) : (issueWrite s).result = s.result := rfl
@[simp] theorem issueWrite_camcnt (s : State) : (issueWrite s).camcnt = s.camcnt := rfl
@[simp] theorem issueWrite_irEn (s : State) : (issueWrite s).irEn = s.irEn := rfl
@[simp] theorem issueWrite_netEn (s : State) : (issueWrite s).netEn = s.netEn := rfl
@[simp] theorem issueWrite_requests (s : State) : (issueWrite s).requests = s.requests := rfl
@[simp] theorem issueWrite_rxStream (s : State) : (issueWrite s).rxStream = s.rxStream := rfl
@[simp] theorem issueWrite_txAnswers (s : State) : (issueWrite s).txAnswers = s.txAnswers := rfl
@[simp] theorem issueWrite_handlerReturns (s : State) : (issueWrite s).handlerReturns = s.handlerReturns := rfl
@[simp] theorem issueWrite_rst (s : State) : (issueWrite s).rst = s.rst := rfl
@[simp] theorem issueWrite_outputs (s : State) : (issueWrite s).outputs = s.outputs ++ [.txReq (s.tbuf.take s.tlen)] := rfl
@[simp] theorem issueWrite_freeCount (s : State) : (issueWrite s).freeCount = s.freeCount := rfl

@[simp] theorem dropSample_cfg (s : State) : (dropSample s).cfg = s.cfg := rfl
@[simp] theorem dropSample_rbuf (s : State) : (dropSample s).rbuf = s.rbuf := rfl
@[simp] theorem dropSample_rlen (s : State) : (dropSample s).rlen = s.rlen := rfl
@[simp] theorem dropSample_tbuf (s : State) : (dropSample s).tbuf = s.tbuf := rfl
@[simp] theorem dropSample_tlen (s : State) : (dropSample s).tlen = s.tlen := rfl
@[simp] theorem dropSample_val0 (s : State) : (dropSample s).val0 = s.val0 := rfl
@[simp] theorem dropSample_val1 (s : State) : (dropSample s).val1 = s.val1 := rfl
@[simp] theorem dropSample_phase (s : State) : (dropSample s).phase = s.phase := rfl
@[simp] theorem dropSample_mode (s : State) : (dropSample s).mode = s.mode := rfl
@[simp] theorem dropSample_shapeR (s : State) : (dropSample s).shapeR = s.shapeR := rfl
@[simp] theorem dropSample_kind (s : State) : (dropSample s).kind = s.kind := rfl
@[simp] theorem dropSample_result (s : State) : (dropSample s).result = s.result := rfl
@[simp] theorem dropSample_camcnt (s : State) : (dropSample s).camcnt = s.camcnt := rfl
@[simp] theorem dropSample_irEn (s : State) : (dropSample s).irEn = s.irEn := rfl
@[simp] theorem dropSample_netEn (s : State) : (dropSample s).netEn = s.netEn := rfl
@[simp] theorem dropSample_requests (s : State) : (dropSample s).requests = s.requests := rfl
@[simp] theorem dropSample_rxStream (s : State) : (dropSample s).rxStream = s.rxStream := rfl
@[simp] theorem dropSample_txAnswers (s : State) : (dropSample s).txAnswers = s.txAnswers := rfl
@[simp] theorem dropSample_handlerReturns (s : State) : (dropSample s).handlerReturns = s.handlerReturns := rfl
@[simp] theorem dropSample_rst (s : State) : (dropSample s).rst = s.rst.rest := rfl
@[simp] theorem dropSample_outputs (s : State) : (dropSample s).outputs = s.outputs := rfl
@[simp] theorem dropSample_freeCount (s : State) : (dropSample s).freeCount = s.freeCount := rfl

@[simp] theorem writeFields_cfg (sh : Shape) (s : State) : (writeFields sh s).cfg = s.cfg := by cases sh <;> rfl
@[simp] theorem writeFields_rbuf (sh : Shape) (s : State) : (writeFields sh s).rbuf = s.rbuf := by cases sh <;> rfl
@[simp] theorem writeFields_rlen (sh : Shape) (s : State) : (writeFields sh s).rlen = s.rlen := by cases sh <;> rfl
@[simp] theorem writeFields_tbuf (sh : Shape) (s : State) : (writeFields sh s).tbuf = s.tbuf := by cases sh <;> rfl
@[simp] theorem writeFields_tlen (sh : Shape) (s : State) : (writeFields sh s).tlen = s.tlen := by cases sh <;> rfl
@[simp] theorem writeFields_phase (sh : Shape) (s : State) : (writeFields sh s).phase = s.phase := by cases sh <;> rfl
@[simp] theorem writeFields_mode (sh : Shape) (s : State) : (writeFields sh s).mode = s.mode := by cases sh <;> rfl
@[simp] theorem writeFields_shapeR (sh : Shape) (s : State) : (writeFields sh s).shapeR = s.shapeR := by cases sh <;> rfl
@[simp] theorem writeFields_kind (sh : Shape) (s : State) : (writeFields sh s).kind = s.kind := by cases sh <;> rfl
@[simp] theorem writeFields_result (sh : Shape) (s : State) : (writeFields sh s).result = s.result := by cases sh <;> rfl
@[simp] theorem writeFields_camcnt (sh : Shape) (s : State) : (writeFields sh s).camcnt = s.camcnt := by cases sh <;> rfl
@[simp] theorem writeFields_irEn (sh : Shape) (s : State) : (writeFields sh s).irEn = s.irEn := by cases sh <;> rfl
@[simp] theorem writeFields_netEn (sh : Shape) (s : State) : (writeFields sh s).netEn = s.netEn := by cases sh <;> rfl
@[simp] theorem writeFields_requests (sh : Shape) (s : State) : (writeFields sh s).requests = s.requests := by cases sh <;> rfl
@[simp] theorem writeFields_rxStream (sh : Shape) (s : State) : (writeFields sh s).rxStream = s.rxStream := by cases sh <;> rfl
@[simp] theorem writeFields_txAnswers (sh : Shape) (s : State) : (writeFields sh s).txAnswers = s.txAnswers := by cases sh <;> rfl
@[simp] theorem writeFields_handlerReturns (sh : Shape) (s : State) : (writeFields sh s).handlerReturns = s.handlerReturns := by cases sh <;> rfl
@[simp] theorem writeFields_rst (sh : Shape) (s : State) : (writeFields sh s).rst = s.rst := by cases sh <;> rfl
@[simp] theorem writeFields_outputs (sh : Shape) (s : State) : (writeFields sh s).outputs = s.outputs := by cases sh <;> rfl
@[simp] theorem writeFields_freeCount (sh : Shape) (s : State) : (writeFields sh s).freeCount = s.freeCount := by cases sh <;> rfl

end Sys2Proof.Machine
end

