-- ==== Sys2Proof/Laws/Ops.lean ====
section
/-! SUPPORT. What each shared operation of Machine/Ops.lean can do, once: the fields it leaves alone, its cases, and what the
encoder leaves in the transmit buffer. -/

namespace Sys2Proof.Machine

open Sys2Proof.Config

/-! ## The decoder (R213 to R215) -/

@[simp] theorem decodeReply_cfg (sh : Shape) (s : State) : (decodeReply sh s).cfg = s.cfg := by unfold decodeReply; split <;> simp
@[simp] theorem decodeReply_rbuf (sh : Shape) (s : State) : (decodeReply sh s).rbuf = s.rbuf := by unfold decodeReply; split <;> simp
@[simp] theorem decodeReply_rlen (sh : Shape) (s : State) : (decodeReply sh s).rlen = s.rlen := by unfold decodeReply; split <;> simp
@[simp] theorem decodeReply_tbuf (sh : Shape) (s : State) : (decodeReply sh s).tbuf = s.tbuf := by unfold decodeReply; split <;> simp
@[simp] theorem decodeReply_tlen (sh : Shape) (s : State) : (decodeReply sh s).tlen = s.tlen := by unfold decodeReply; split <;> simp
@[simp] theorem decodeReply_phase (sh : Shape) (s : State) : (decodeReply sh s).phase = s.phase := by unfold decodeReply; split <;> simp
@[simp] theorem decodeReply_mode (sh : Shape) (s : State) : (decodeReply sh s).mode = s.mode := by unfold decodeReply; split <;> simp
@[simp] theorem decodeReply_shapeR (sh : Shape) (s : State) : (decodeReply sh s).shapeR = s.shapeR := by unfold decodeReply; split <;> simp
@[simp] theorem decodeReply_kind (sh : Shape) (s : State) : (decodeReply sh s).kind = s.kind := by unfold decodeReply; split <;> simp
@[simp] theorem decodeReply_camcnt (sh : Shape) (s : State) : (decodeReply sh s).camcnt = s.camcnt := by unfold decodeReply; split <;> simp
@[simp] theorem decodeReply_irEn (sh : Shape) (s : State) : (decodeReply sh s).irEn = s.irEn := by unfold decodeReply; split <;> simp
@[simp] theorem decodeReply_netEn (sh : Shape) (s : State) : (decodeReply sh s).netEn = s.netEn := by unfold decodeReply; split <;> simp
@[simp] theorem decodeReply_requests (sh : Shape) (s : State) : (decodeReply sh s).requests = s.requests := by unfold decodeReply; split <;> simp
@[simp] theorem decodeReply_rxStream (sh : Shape) (s : State) : (decodeReply sh s).rxStream = s.rxStream := by unfold decodeReply; split <;> simp
@[simp] theorem decodeReply_txAnswers (sh : Shape) (s : State) : (decodeReply sh s).txAnswers = s.txAnswers := by unfold decodeReply; split <;> simp
@[simp] theorem decodeReply_handlerReturns (sh : Shape) (s : State) : (decodeReply sh s).handlerReturns = s.handlerReturns := by unfold decodeReply; split <;> simp
@[simp] theorem decodeReply_rst (sh : Shape) (s : State) : (decodeReply sh s).rst = s.rst := by unfold decodeReply; split <;> simp
@[simp] theorem decodeReply_outputs (sh : Shape) (s : State) : (decodeReply sh s).outputs = s.outputs := by unfold decodeReply; split <;> simp
@[simp] theorem decodeReply_freeCount (sh : Shape) (s : State) : (decodeReply sh s).freeCount = s.freeCount := by unfold decodeReply; split <;> simp

/-- A decode of a Reply of the shape's length writes the fields and success (R214). -/
theorem decodeReply_fits (sh : Shape) (s : State) (h : fitsShape sh s = true) :
    decodeReply sh s = { writeFields sh s with result := 0x00 } := by
  simp [decodeReply, h, codeSuccess]

/-- Any other decode writes UnexpectedPacket and nothing else (R215). -/
theorem decodeReply_fails (sh : Shape) (s : State) (h : fitsShape sh s = false) :
    decodeReply sh s = { s with result := 0xFA } := by
  simp [decodeReply, h, codeUnexpected]

/-! ## The sequencer (R181, R184, R233) -/

@[simp] theorem postCheck_cfg (s : State) : (postCheck s).cfg = s.cfg := by unfold postCheck postInq postAssign; split <;> (try split) <;> (try split) <;> simp
@[simp] theorem postCheck_rbuf (s : State) : (postCheck s).rbuf = s.rbuf := by unfold postCheck postInq postAssign; split <;> (try split) <;> (try split) <;> simp
@[simp] theorem postCheck_rlen (s : State) : (postCheck s).rlen = s.rlen := by unfold postCheck postInq postAssign; split <;> (try split) <;> (try split) <;> simp
@[simp] theorem postCheck_tbuf (s : State) : (postCheck s).tbuf = s.tbuf := by unfold postCheck postInq postAssign; split <;> (try split) <;> (try split) <;> simp
@[simp] theorem postCheck_tlen (s : State) : (postCheck s).tlen = s.tlen := by unfold postCheck postInq postAssign; split <;> (try split) <;> (try split) <;> simp
@[simp] theorem postCheck_phase (s : State) : (postCheck s).phase = s.phase := by unfold postCheck postInq postAssign; split <;> (try split) <;> (try split) <;> simp
@[simp] theorem postCheck_mode (s : State) : (postCheck s).mode = s.mode := by unfold postCheck postInq postAssign; split <;> (try split) <;> (try split) <;> simp
@[simp] theorem postCheck_shapeR (s : State) : (postCheck s).shapeR = s.shapeR := by unfold postCheck postInq postAssign; split <;> (try split) <;> (try split) <;> simp
@[simp] theorem postCheck_kind (s : State) : (postCheck s).kind = s.kind := by unfold postCheck postInq postAssign; split <;> (try split) <;> (try split) <;> simp
@[simp] theorem postCheck_camcnt (s : State) : (postCheck s).camcnt = s.camcnt := by unfold postCheck postInq postAssign; split <;> (try split) <;> (try split) <;> simp
@[simp] theorem postCheck_irEn (s : State) : (postCheck s).irEn = s.irEn := by unfold postCheck postInq postAssign; split <;> (try split) <;> (try split) <;> simp
@[simp] theorem postCheck_netEn (s : State) : (postCheck s).netEn = s.netEn := by unfold postCheck postInq postAssign; split <;> (try split) <;> (try split) <;> simp
@[simp] theorem postCheck_requests (s : State) : (postCheck s).requests = s.requests := by unfold postCheck postInq postAssign; split <;> (try split) <;> (try split) <;> simp
@[simp] theorem postCheck_rxStream (s : State) : (postCheck s).rxStream = s.rxStream := by unfold postCheck postInq postAssign; split <;> (try split) <;> (try split) <;> simp
@[simp] theorem postCheck_txAnswers (s : State) : (postCheck s).txAnswers = s.txAnswers := by unfold postCheck postInq postAssign; split <;> (try split) <;> (try split) <;> simp
@[simp] theorem postCheck_handlerReturns (s : State) : (postCheck s).handlerReturns = s.handlerReturns := by unfold postCheck postInq postAssign; split <;> (try split) <;> (try split) <;> simp
@[simp] theorem postCheck_rst (s : State) : (postCheck s).rst = s.rst := by unfold postCheck postInq postAssign; split <;> (try split) <;> (try split) <;> simp
@[simp] theorem postCheck_outputs (s : State) : (postCheck s).outputs = s.outputs := by unfold postCheck postInq postAssign; split <;> (try split) <;> (try split) <;> simp
@[simp] theorem postCheck_freeCount (s : State) : (postCheck s).freeCount = s.freeCount := by unfold postCheck postInq postAssign; split <;> (try split) <;> (try split) <;> simp

theorem terminal_recv (k : Kind) (c : Byte) (s : State) (h : s.mode = .recv) :
    terminal k c s = finish (latch k c s) := by simp [terminal, sequence, h]

theorem terminal_absorbs (c : Byte) (s : State) (h : s.mode ≠ .recv) :
    terminal .ack c s = startFrame (latch .ack c s) := by simp [terminal, sequence, h]

theorem terminal_ends (k : Kind) (c : Byte) (s : State) (h : s.mode ≠ .recv) (hk : k ≠ .ack) :
    terminal k c s = finish (postCheck (latch k c s)) := by simp [terminal, sequence, h, hk]

/-- Everything a terminal outcome can do (R139, R181). -/
theorem terminal_cases (k : Kind) (c : Byte) (s : State) :
    (s.mode = .recv ∧ terminal k c s = finish (latch k c s)) ∨
    (s.mode ≠ .recv ∧ k = .ack ∧ terminal k c s = startFrame (latch k c s)) ∨
    (s.mode ≠ .recv ∧ k ≠ .ack ∧ terminal k c s = finish (postCheck (latch k c s))) := by
  by_cases h : s.mode = .recv
  · exact .inl ⟨h, terminal_recv k c s h⟩
  · by_cases hk : k = .ack
    · subst hk; exact .inr (.inl ⟨h, rfl, terminal_absorbs c s h⟩)
    · exact .inr (.inr ⟨h, hk, terminal_ends k c s h hk⟩)

@[simp] theorem terminal_cfg (k : Kind) (c : Byte) (s : State) : (terminal k c s).cfg = s.cfg := by rcases terminal_cases k c s with ⟨_, h⟩ | ⟨_, _, h⟩ | ⟨_, _, h⟩ <;> simp [h]
@[simp] theorem terminal_rbuf (k : Kind) (c : Byte) (s : State) : (terminal k c s).rbuf = s.rbuf := by rcases terminal_cases k c s with ⟨_, h⟩ | ⟨_, _, h⟩ | ⟨_, _, h⟩ <;> simp [h]
@[simp] theorem terminal_tbuf (k : Kind) (c : Byte) (s : State) : (terminal k c s).tbuf = s.tbuf := by rcases terminal_cases k c s with ⟨_, h⟩ | ⟨_, _, h⟩ | ⟨_, _, h⟩ <;> simp [h]
@[simp] theorem terminal_tlen (k : Kind) (c : Byte) (s : State) : (terminal k c s).tlen = s.tlen := by rcases terminal_cases k c s with ⟨_, h⟩ | ⟨_, _, h⟩ | ⟨_, _, h⟩ <;> simp [h]
@[simp] theorem terminal_mode (k : Kind) (c : Byte) (s : State) : (terminal k c s).mode = s.mode := by rcases terminal_cases k c s with ⟨_, h⟩ | ⟨_, _, h⟩ | ⟨_, _, h⟩ <;> simp [h]
@[simp] theorem terminal_shapeR (k : Kind) (c : Byte) (s : State) : (terminal k c s).shapeR = s.shapeR := by rcases terminal_cases k c s with ⟨_, h⟩ | ⟨_, _, h⟩ | ⟨_, _, h⟩ <;> simp [h]
@[simp] theorem terminal_camcnt (k : Kind) (c : Byte) (s : State) : (terminal k c s).camcnt = s.camcnt := by rcases terminal_cases k c s with ⟨_, h⟩ | ⟨_, _, h⟩ | ⟨_, _, h⟩ <;> simp [h]
@[simp] theorem terminal_irEn (k : Kind) (c : Byte) (s : State) : (terminal k c s).irEn = s.irEn := by rcases terminal_cases k c s with ⟨_, h⟩ | ⟨_, _, h⟩ | ⟨_, _, h⟩ <;> simp [h]
@[simp] theorem terminal_netEn (k : Kind) (c : Byte) (s : State) : (terminal k c s).netEn = s.netEn := by rcases terminal_cases k c s with ⟨_, h⟩ | ⟨_, _, h⟩ | ⟨_, _, h⟩ <;> simp [h]
@[simp] theorem terminal_requests (k : Kind) (c : Byte) (s : State) : (terminal k c s).requests = s.requests := by rcases terminal_cases k c s with ⟨_, h⟩ | ⟨_, _, h⟩ | ⟨_, _, h⟩ <;> simp [h]
@[simp] theorem terminal_rxStream (k : Kind) (c : Byte) (s : State) : (terminal k c s).rxStream = s.rxStream := by rcases terminal_cases k c s with ⟨_, h⟩ | ⟨_, _, h⟩ | ⟨_, _, h⟩ <;> simp [h]
@[simp] theorem terminal_txAnswers (k : Kind) (c : Byte) (s : State) : (terminal k c s).txAnswers = s.txAnswers := by rcases terminal_cases k c s with ⟨_, h⟩ | ⟨_, _, h⟩ | ⟨_, _, h⟩ <;> simp [h]
@[simp] theorem terminal_handlerReturns (k : Kind) (c : Byte) (s : State) : (terminal k c s).handlerReturns = s.handlerReturns := by rcases terminal_cases k c s with ⟨_, h⟩ | ⟨_, _, h⟩ | ⟨_, _, h⟩ <;> simp [h]
@[simp] theorem terminal_rst (k : Kind) (c : Byte) (s : State) : (terminal k c s).rst = s.rst := by rcases terminal_cases k c s with ⟨_, h⟩ | ⟨_, _, h⟩ | ⟨_, _, h⟩ <;> simp [h]
@[simp] theorem terminal_freeCount (k : Kind) (c : Byte) (s : State) : (terminal k c s).freeCount = s.freeCount := by rcases terminal_cases k c s with ⟨_, h⟩ | ⟨_, _, h⟩ | ⟨_, _, h⟩ <;> simp [h]
@[simp] theorem terminal_kind (k : Kind) (c : Byte) (s : State) : (terminal k c s).kind = k := by
  rcases terminal_cases k c s with ⟨_, h⟩ | ⟨_, _, h⟩ | ⟨_, _, h⟩ <;> simp [h]

/-! ## Push delivery and return (R159, R160, R264, R265) -/

@[simp] theorem deliverPush_cfg (en : Bool) (o : Output) (s : State) : (deliverPush en o s).cfg = s.cfg := by unfold deliverPush; split <;> simp
@[simp] theorem deliverPush_rbuf (en : Bool) (o : Output) (s : State) : (deliverPush en o s).rbuf = s.rbuf := by unfold deliverPush; split <;> simp
@[simp] theorem deliverPush_tbuf (en : Bool) (o : Output) (s : State) : (deliverPush en o s).tbuf = s.tbuf := by unfold deliverPush; split <;> simp
@[simp] theorem deliverPush_tlen (en : Bool) (o : Output) (s : State) : (deliverPush en o s).tlen = s.tlen := by unfold deliverPush; split <;> simp
@[simp] theorem deliverPush_val0 (en : Bool) (o : Output) (s : State) : (deliverPush en o s).val0 = s.val0 := by unfold deliverPush; split <;> simp
@[simp] theorem deliverPush_val1 (en : Bool) (o : Output) (s : State) : (deliverPush en o s).val1 = s.val1 := by unfold deliverPush; split <;> simp
@[simp] theorem deliverPush_mode (en : Bool) (o : Output) (s : State) : (deliverPush en o s).mode = s.mode := by unfold deliverPush; split <;> simp
@[simp] theorem deliverPush_shapeR (en : Bool) (o : Output) (s : State) : (deliverPush en o s).shapeR = s.shapeR := by unfold deliverPush; split <;> simp
@[simp] theorem deliverPush_kind (en : Bool) (o : Output) (s : State) : (deliverPush en o s).kind = s.kind := by unfold deliverPush; split <;> simp
@[simp] theorem deliverPush_result (en : Bool) (o : Output) (s : State) : (deliverPush en o s).result = s.result := by unfold deliverPush; split <;> simp
@[simp] theorem deliverPush_camcnt (en : Bool) (o : Output) (s : State) : (deliverPush en o s).camcnt = s.camcnt := by unfold deliverPush; split <;> simp
@[simp] theorem deliverPush_irEn (en : Bool) (o : Output) (s : State) : (deliverPush en o s).irEn = s.irEn := by unfold deliverPush; split <;> simp
@[simp] theorem deliverPush_netEn (en : Bool) (o : Output) (s : State) : (deliverPush en o s).netEn = s.netEn := by unfold deliverPush; split <;> simp
@[simp] theorem deliverPush_requests (en : Bool) (o : Output) (s : State) : (deliverPush en o s).requests = s.requests := by unfold deliverPush; split <;> simp
@[simp] theorem deliverPush_rxStream (en : Bool) (o : Output) (s : State) : (deliverPush en o s).rxStream = s.rxStream := by unfold deliverPush; split <;> simp
@[simp] theorem deliverPush_txAnswers (en : Bool) (o : Output) (s : State) : (deliverPush en o s).txAnswers = s.txAnswers := by unfold deliverPush; split <;> simp
@[simp] theorem deliverPush_handlerReturns (en : Bool) (o : Output) (s : State) : (deliverPush en o s).handlerReturns = s.handlerReturns := by unfold deliverPush; split <;> simp
@[simp] theorem deliverPush_rst (en : Bool) (o : Output) (s : State) : (deliverPush en o s).rst = s.rst := by unfold deliverPush; split <;> simp
@[simp] theorem deliverPush_freeCount (en : Bool) (o : Output) (s : State) : (deliverPush en o s).freeCount = s.freeCount := by unfold deliverPush; split <;> simp

@[simp] theorem handlerReturned_cfg (s : State) : (handlerReturned s).cfg = s.cfg := by unfold handlerReturned; split <;> simp
@[simp] theorem handlerReturned_rbuf (s : State) : (handlerReturned s).rbuf = s.rbuf := by unfold handlerReturned; split <;> simp
@[simp] theorem handlerReturned_tbuf (s : State) : (handlerReturned s).tbuf = s.tbuf := by unfold handlerReturned; split <;> simp
@[simp] theorem handlerReturned_tlen (s : State) : (handlerReturned s).tlen = s.tlen := by unfold handlerReturned; split <;> simp
@[simp] theorem handlerReturned_val0 (s : State) : (handlerReturned s).val0 = s.val0 := by unfold handlerReturned; split <;> simp
@[simp] theorem handlerReturned_val1 (s : State) : (handlerReturned s).val1 = s.val1 := by unfold handlerReturned; split <;> simp
@[simp] theorem handlerReturned_mode (s : State) : (handlerReturned s).mode = s.mode := by unfold handlerReturned; split <;> simp
@[simp] theorem handlerReturned_shapeR (s : State) : (handlerReturned s).shapeR = s.shapeR := by unfold handlerReturned; split <;> simp
@[simp] theorem handlerReturned_kind (s : State) : (handlerReturned s).kind = s.kind := by unfold handlerReturned; split <;> simp
@[simp] theorem handlerReturned_result (s : State) : (handlerReturned s).result = s.result := by unfold handlerReturned; split <;> simp
@[simp] theorem handlerReturned_camcnt (s : State) : (handlerReturned s).camcnt = s.camcnt := by unfold handlerReturned; split <;> simp
@[simp] theorem handlerReturned_irEn (s : State) : (handlerReturned s).irEn = s.irEn := by unfold handlerReturned; split <;> simp
@[simp] theorem handlerReturned_netEn (s : State) : (handlerReturned s).netEn = s.netEn := by unfold handlerReturned; split <;> simp
@[simp] theorem handlerReturned_requests (s : State) : (handlerReturned s).requests = s.requests := by unfold handlerReturned; split <;> simp
@[simp] theorem handlerReturned_rxStream (s : State) : (handlerReturned s).rxStream = s.rxStream := by unfold handlerReturned; split <;> simp
@[simp] theorem handlerReturned_txAnswers (s : State) : (handlerReturned s).txAnswers = s.txAnswers := by unfold handlerReturned; split <;> simp
@[simp] theorem handlerReturned_handlerReturns (s : State) : (handlerReturned s).handlerReturns = s.handlerReturns := by unfold handlerReturned; split <;> simp
@[simp] theorem handlerReturned_rst (s : State) : (handlerReturned s).rst = s.rst := by unfold handlerReturned; split <;> simp
@[simp] theorem handlerReturned_freeCount (s : State) : (handlerReturned s).freeCount = s.freeCount := by unfold handlerReturned; split <;> simp

/-! ## The encoder (R192, R194 to R197, R199) -/

/-- Bytes put one after another stand one after another from `tlen` on (R194). -/
theorem foldl_putByte (bs : List Byte) (s : State) (h : s.tlen + bs.length ≤ s.tbuf.length) :
    bs.foldl putByte s = { s with tbuf := s.tbuf.take s.tlen ++ bs ++ s.tbuf.drop (s.tlen + bs.length),
                                  tlen := s.tlen + bs.length } := by
  induction bs generalizing s with
  | nil => simp
  | cons b bs ih =>
    rw [List.foldl_cons, ih _ (by simp only [putByte_tlen, putByte_tbuf, List.length_set, List.length_cons] at *; omega)]
    simp only [List.length_cons] at h
    have ht : s.tlen < s.tbuf.length := by omega
    have hset : (s.tbuf.take s.tlen).set s.tlen b = s.tbuf.take s.tlen := List.set_eq_of_length_le (by simp)
    simp [putByte, List.drop_set, List.take_set, List.take_add_one, ht, hset, Nat.add_assoc, Nat.add_comm 1 bs.length]

/-- What the encoder leaves in the transmit buffer: the packet from index 0, what stood beyond it unchanged (R192,
R194). -/
theorem buildPacket_eq (addr : Byte) (p : List Byte) (s : State) (h : p.length + 2 ≤ s.tbuf.length) :
    buildPacket addr p s = { s with tbuf := encodePacket addr p ++ s.tbuf.drop (p.length + 2), tlen := p.length + 2 } := by
  have hl : (encodePacket addr p).length = p.length + 2 := by simp [encodePacket]
  rw [buildPacket, foldl_putByte _ _ (by simp [hl]; omega)]
  simp [hl]

theorem foldl_putByte_length (bs : List Byte) (s : State) : (bs.foldl putByte s).tbuf.length = s.tbuf.length := by
  induction bs generalizing s with
  | nil => rfl
  | cons b bs ih => simp [ih]

theorem foldl_putByte_tlen (bs : List Byte) (s : State) : (bs.foldl putByte s).tlen = s.tlen + bs.length := by
  induction bs generalizing s with
  | nil => rfl
  | cons b bs ih => simp [ih]; omega

theorem foldl_putByte_cfg (bs : List Byte) (s : State) : (bs.foldl putByte s).cfg = s.cfg := by
  induction bs generalizing s with | nil => rfl | cons b bs ih => simp [ih]
theorem foldl_putByte_rbuf (bs : List Byte) (s : State) : (bs.foldl putByte s).rbuf = s.rbuf := by
  induction bs generalizing s with | nil => rfl | cons b bs ih => simp [ih]
theorem foldl_putByte_rlen (bs : List Byte) (s : State) : (bs.foldl putByte s).rlen = s.rlen := by
  induction bs generalizing s with | nil => rfl | cons b bs ih => simp [ih]
theorem foldl_putByte_val0 (bs : List Byte) (s : State) : (bs.foldl putByte s).val0 = s.val0 := by
  induction bs generalizing s with | nil => rfl | cons b bs ih => simp [ih]
theorem foldl_putByte_val1 (bs : List Byte) (s : State) : (bs.foldl putByte s).val1 = s.val1 := by
  induction bs generalizing s with | nil => rfl | cons b bs ih => simp [ih]
theorem foldl_putByte_phase (bs : List Byte) (s : State) : (bs.foldl putByte s).phase = s.phase := by
  induction bs generalizing s with | nil => rfl | cons b bs ih => simp [ih]
theorem foldl_putByte_mode (bs : List Byte) (s : State) : (bs.foldl putByte s).mode = s.mode := by
  induction bs generalizing s with | nil => rfl | cons b bs ih => simp [ih]
theorem foldl_putByte_shapeR (bs : List Byte) (s : State) : (bs.foldl putByte s).shapeR = s.shapeR := by
  induction bs generalizing s with | nil => rfl | cons b bs ih => simp [ih]
theorem foldl_putByte_kind (bs : List Byte) (s : State) : (bs.foldl putByte s).kind = s.kind := by
  induction bs generalizing s with | nil => rfl | cons b bs ih => simp [ih]
theorem foldl_putByte_result (bs : List Byte) (s : State) : (bs.foldl putByte s).result = s.result := by
  induction bs generalizing s with | nil => rfl | cons b bs ih => simp [ih]
theorem foldl_putByte_camcnt (bs : List Byte) (s : State) : (bs.foldl putByte s).camcnt = s.camcnt := by
  induction bs generalizing s with | nil => rfl | cons b bs ih => simp [ih]
theorem foldl_putByte_irEn (bs : List Byte) (s : State) : (bs.foldl putByte s).irEn = s.irEn := by
  induction bs generalizing s with | nil => rfl | cons b bs ih => simp [ih]
theorem foldl_putByte_netEn (bs : List Byte) (s : State) : (bs.foldl putByte s).netEn = s.netEn := by
  induction bs generalizing s with | nil => rfl | cons b bs ih => simp [ih]
theorem foldl_putByte_requests (bs : List Byte) (s : State) : (bs.foldl putByte s).requests = s.requests := by
  induction bs generalizing s with | nil => rfl | cons b bs ih => simp [ih]
theorem foldl_putByte_rxStream (bs : List Byte) (s : State) : (bs.foldl putByte s).rxStream = s.rxStream := by
  induction bs generalizing s with | nil => rfl | cons b bs ih => simp [ih]
theorem foldl_putByte_txAnswers (bs : List Byte) (s : State) : (bs.foldl putByte s).txAnswers = s.txAnswers := by
  induction bs generalizing s with | nil => rfl | cons b bs ih => simp [ih]
theorem foldl_putByte_handlerReturns (bs : List Byte) (s : State) : (bs.foldl putByte s).handlerReturns = s.handlerReturns := by
  induction bs generalizing s with | nil => rfl | cons b bs ih => simp [ih]
theorem foldl_putByte_rst (bs : List Byte) (s : State) : (bs.foldl putByte s).rst = s.rst := by
  induction bs generalizing s with | nil => rfl | cons b bs ih => simp [ih]
theorem foldl_putByte_outputs (bs : List Byte) (s : State) : (bs.foldl putByte s).outputs = s.outputs := by
  induction bs generalizing s with | nil => rfl | cons b bs ih => simp [ih]
theorem foldl_putByte_freeCount (bs : List Byte) (s : State) : (bs.foldl putByte s).freeCount = s.freeCount := by
  induction bs generalizing s with | nil => rfl | cons b bs ih => simp [ih]

@[simp] theorem buildPacket_cfg (addr : Byte) (p : List Byte) (s : State) : (buildPacket addr p s).cfg = s.cfg := by simp [buildPacket, foldl_putByte_cfg]
@[simp] theorem buildPacket_rbuf (addr : Byte) (p : List Byte) (s : State) : (buildPacket addr p s).rbuf = s.rbuf := by simp [buildPacket, foldl_putByte_rbuf]
@[simp] theorem buildPacket_rlen (addr : Byte) (p : List Byte) (s : State) : (buildPacket addr p s).rlen = s.rlen := by simp [buildPacket, foldl_putByte_rlen]
@[simp] theorem buildPacket_val0 (addr : Byte) (p : List Byte) (s : State) : (buildPacket addr p s).val0 = s.val0 := by simp [buildPacket, foldl_putByte_val0]
@[simp] theorem buildPacket_val1 (addr : Byte) (p : List Byte) (s : State) : (buildPacket addr p s).val1 = s.val1 := by simp [buildPacket, foldl_putByte_val1]
@[simp] theorem buildPacket_phase (addr : Byte) (p : List Byte) (s : State) : (buildPacket addr p s).phase = s.phase := by simp [buildPacket, foldl_putByte_phase]
@[simp] theorem buildPacket_mode (addr : Byte) (p : List Byte) (s : State) : (buildPacket addr p s).mode = s.mode := by simp [buildPacket, foldl_putByte_mode]
@[simp] theorem buildPacket_shapeR (addr : Byte) (p : List Byte) (s : State) : (buildPacket addr p s).shapeR = s.shapeR := by simp [buildPacket, foldl_putByte_shapeR]
@[simp] theorem buildPacket_kind (addr : Byte) (p : List Byte) (s : State) : (buildPacket addr p s).kind = s.kind := by simp [buildPacket, foldl_putByte_kind]
@[simp] theorem buildPacket_result (addr : Byte) (p : List Byte) (s : State) : (buildPacket addr p s).result = s.result := by simp [buildPacket, foldl_putByte_result]
@[simp] theorem buildPacket_camcnt (addr : Byte) (p : List Byte) (s : State) : (buildPacket addr p s).camcnt = s.camcnt := by simp [buildPacket, foldl_putByte_camcnt]
@[simp] theorem buildPacket_irEn (addr : Byte) (p : List Byte) (s : State) : (buildPacket addr p s).irEn = s.irEn := by simp [buildPacket, foldl_putByte_irEn]
@[simp] theorem buildPacket_netEn (addr : Byte) (p : List Byte) (s : State) : (buildPacket addr p s).netEn = s.netEn := by simp [buildPacket, foldl_putByte_netEn]
@[simp] theorem buildPacket_requests (addr : Byte) (p : List Byte) (s : State) : (buildPacket addr p s).requests = s.requests := by simp [buildPacket, foldl_putByte_requests]
@[simp] theorem buildPacket_rxStream (addr : Byte) (p : List Byte) (s : State) : (buildPacket addr p s).rxStream = s.rxStream := by simp [buildPacket, foldl_putByte_rxStream]
@[simp] theorem buildPacket_txAnswers (addr : Byte) (p : List Byte) (s : State) : (buildPacket addr p s).txAnswers = s.txAnswers := by simp [buildPacket, foldl_putByte_txAnswers]
@[simp] theorem buildPacket_handlerReturns (addr : Byte) (p : List Byte) (s : State) : (buildPacket addr p s).handlerReturns = s.handlerReturns := by simp [buildPacket, foldl_putByte_handlerReturns]
@[simp] theorem buildPacket_rst (addr : Byte) (p : List Byte) (s : State) : (buildPacket addr p s).rst = s.rst := by simp [buildPacket, foldl_putByte_rst]
@[simp] theorem buildPacket_outputs (addr : Byte) (p : List Byte) (s : State) : (buildPacket addr p s).outputs = s.outputs := by simp [buildPacket, foldl_putByte_outputs]
@[simp] theorem buildPacket_freeCount (addr : Byte) (p : List Byte) (s : State) : (buildPacket addr p s).freeCount = s.freeCount := by simp [buildPacket, foldl_putByte_freeCount]
@[simp] theorem buildPacket_tlen (addr : Byte) (p : List Byte) (s : State) : (buildPacket addr p s).tlen = p.length + 2 := by
  simp [buildPacket, foldl_putByte_tlen, encodePacket]; omega
@[simp] theorem buildPacket_tbuf_length (addr : Byte) (p : List Byte) (s : State) :
    (buildPacket addr p s).tbuf.length = s.tbuf.length := by simp [buildPacket, foldl_putByte_length]

/-- The packet handed over is the encoded one (R192, R195). -/
theorem buildPacket_packet (addr : Byte) (p : List Byte) (s : State) (h : p.length + 2 ≤ s.tbuf.length) :
    (buildPacket addr p s).tbuf.take (buildPacket addr p s).tlen = encodePacket addr p := by
  have hl : (encodePacket addr p).length = p.length + 2 := by simp [encodePacket]
  rw [buildPacket_eq _ _ _ h, ← hl]
  simp

theorem buildAndWrite_fits (addr : Byte) (p : List Byte) (s : State) (h : p.length + 2 ≤ s.cfg.maxLen) :
    buildAndWrite addr p s = .next (issueWrite (buildPacket addr p s)) := by simp [buildAndWrite, h]

theorem buildAndWrite_too_long (addr : Byte) (p : List Byte) (s : State) (h : s.cfg.maxLen < p.length + 2) :
    buildAndWrite addr p s = .refused .payloadTooLong := by
  simp [buildAndWrite, Nat.not_le.mpr h]

theorem buildAndWrite_next (addr : Byte) (p : List Byte) (s t : State) (h : buildAndWrite addr p s = .next t) :
    p.length + 2 ≤ s.cfg.maxLen ∧ t = issueWrite (buildPacket addr p s) := by
  unfold buildAndWrite at h
  split at h
  · exact ⟨‹_›, (by simpa using h.symm)⟩
  · cases h

/-- Everything the answer to a write can do (R196, R197, R282). -/
theorem writeAnswered_cases (w : Int) (s : State) :
    (s.phase ≠ .txw ∧ writeAnswered w s = s) ∨
    (s.phase = .txw ∧ w < s.tlen ∧ writeAnswered w s = finish (latch .writeFail 0xFF s)) ∨
    (s.phase = .txw ∧ (s.tlen : Int) ≤ w ∧ writeAnswered w s = startFrame s) := by
  unfold writeAnswered
  split
  · split
    · exact .inr (.inl ⟨‹_›, ‹_›, rfl⟩)
    · exact .inr (.inr ⟨‹_›, by omega, rfl⟩)
  · exact .inl ⟨‹_›, rfl⟩

/-! ## Acceptance (R36, R38, R282) -/

theorem whenIdle_idle (s : State) (a : Answer) (h : s.phase = .idle) : whenIdle s a = a := by simp [whenIdle, h]

theorem whenIdle_busy (s : State) (a : Answer) (h : s.phase ≠ .idle) : whenIdle s a = .next s := by simp [whenIdle, h]

theorem whenReading_reading (s : State) (a : Answer) (h : s.phase = .rxw) : whenReading s a = a := by simp [whenReading, h]

theorem whenReading_other (s : State) (a : Answer) (h : s.phase ≠ .rxw) : whenReading s a = .next s := by
  simp [whenReading, h]

/-! ## Reset (R42) -/

@[simp] theorem resetBlock_cfg (s : State) : (resetBlock s).cfg = s.cfg := rfl
@[simp] theorem resetBlock_rbuf_length (s : State) : (resetBlock s).rbuf.length = s.cfg.maxLen := by simp [resetBlock]
@[simp] theorem resetBlock_rlen (s : State) : (resetBlock s).rlen = 0 := rfl
@[simp] theorem resetBlock_tbuf_length (s : State) : (resetBlock s).tbuf.length = s.cfg.maxLen := by simp [resetBlock]
@[simp] theorem resetBlock_tlen (s : State) : (resetBlock s).tlen = 0 := rfl
@[simp] theorem resetBlock_phase (s : State) : (resetBlock s).phase = .idle := rfl
@[simp] theorem resetBlock_kind (s : State) : (resetBlock s).kind = .none := rfl
@[simp] theorem resetBlock_result (s : State) : (resetBlock s).result = 0x00 := rfl
@[simp] theorem resetBlock_camcnt (s : State) : (resetBlock s).camcnt = 0 := rfl
@[simp] theorem resetBlock_irEn (s : State) : (resetBlock s).irEn = false := rfl
@[simp] theorem resetBlock_netEn (s : State) : (resetBlock s).netEn = false := rfl
@[simp] theorem resetBlock_requests (s : State) : (resetBlock s).requests = s.requests := rfl
@[simp] theorem resetBlock_rxStream (s : State) : (resetBlock s).rxStream = s.rxStream := rfl
@[simp] theorem resetBlock_txAnswers (s : State) : (resetBlock s).txAnswers = s.txAnswers := rfl
@[simp] theorem resetBlock_handlerReturns (s : State) : (resetBlock s).handlerReturns = s.handlerReturns := rfl
@[simp] theorem resetBlock_rst (s : State) : (resetBlock s).rst = s.rst := rfl
@[simp] theorem resetBlock_outputs (s : State) : (resetBlock s).outputs = s.outputs := rfl

end Sys2Proof.Machine
end

