-- ==== Sys2Proof/Laws/Ports.lean ====
section
/-! SUPPORT. Feeds: what is offered now and what is left, for each shape of a feed; the codes of the receive port. -/

namespace Sys2Proof.Machine

open Sys2Proof.Config

@[simp] theorem Feed.head?_silent {α : Type} : (Feed.silent : Feed α).head? = none := rfl

@[simp] theorem Feed.rest_silent {α : Type} : (Feed.silent : Feed α).rest = .silent := rfl

@[simp] theorem Feed.head?_cons {α : Type} (a : α) (f : Feed α) : (f.cons a).head? = some a := rfl

@[simp] theorem Feed.rest_cons {α : Type} (a : α) (f : Feed α) : (f.cons a).rest = f := rfl

/-- What is offered over and over stays. -/
@[simp] theorem Feed.rest_forever {α : Type} (f : Feed α) : f.rest.forever = f.forever := by
  unfold Feed.rest; split <;> rfl

/-- A feed that offers something is that and what is left, or stands at the start of what it offers over and over. -/
theorem Feed.cases_of_head? {α : Type} {f : Feed α} {a : α} (h : f.head? = some a) :
    (∃ as, f = ⟨a :: as, f.forever⟩ ∧ f.rest = ⟨as, f.forever⟩) ∨
    (∃ as, f = ⟨[], a :: as⟩ ∧ f.rest = ⟨as, a :: as⟩) := by
  obtain ⟨o, v⟩ := f
  cases o with
  | cons b bs => cases h; exact .inl ⟨bs, rfl, rfl⟩
  | nil =>
    cases v with
    | nil => cases h
    | cons b bs => cases h; exact .inr ⟨bs, rfl, rfl⟩

/-- A feed is at its end only if it offers nothing over and over. -/
theorem Feed.head?_eq_none {α : Type} {f : Feed α} (h : f.head? = none) : f = .silent := by
  obtain ⟨o, v⟩ := f
  cases o with
  | cons b bs => cases h
  | nil =>
    cases v with
    | nil => rfl
    | cons b bs => cases h

/-- A feed with something to offer over and over always offers something (R183). -/
theorem Feed.offers_of_forever {α : Type} (f : Feed α) (h : f.forever ≠ []) : ∃ a, f.head? = some a := by
  cases hf : f.head? with
  | none => rw [Feed.head?_eq_none hf] at h; exact absurd rfl h
  | some a => exact ⟨a, rfl⟩

/-- The codes of the receive port carry the answer they were made from (R38). -/
@[simp] theorem rxAnswerOf_rxStatus_byte (b : Byte) : rxAnswerOf (rxStatus (.byte b)) b = some (.byte b) := rfl

@[simp] theorem rxAnswerOf_rxStatus_empty (b : Byte) : rxAnswerOf (rxStatus .empty) b = some .empty := rfl

@[simp] theorem rxAnswerOf_rxStatus_error (b : Byte) : rxAnswerOf (rxStatus .error) b = some .error := rfl

end Sys2Proof.Machine
end

