-- ==== Sys2Proof/Laws/Step.lean ====
section
/-! SUPPORT. What a step can do, once: which event it is offered in each phase, and what accepting it leads to. -/

namespace Sys2Proof.Machine

open Sys2Proof.Config

/-- Which event is offered, by the reset pin and the phase, and what is taken from the ports for it (R24, R41, R141). -/
theorem nextEvent_cases (s : State) :
    (resetSampled s = true ∧ nextEvent s = some (.reset, dropSample s)) ∨
    (resetSampled s = false ∧ nextEvent s = none) ∨
    (resetSampled s = false ∧ s.phase = .idle ∧ ∃ r, s.requests.head? = some r ∧
      nextEvent s = some (.hostReq r, { dropSample s with requests := s.requests.rest })) ∨
    (resetSampled s = false ∧ s.phase = .rxw ∧ ∃ a, s.rxStream.head? = some a ∧
      nextEvent s = some (.rxRsp a, { dropSample s with rxStream := s.rxStream.rest })) ∨
    (resetSampled s = false ∧ s.phase = .txw ∧ ∃ w, s.txAnswers.head? = some w ∧
      nextEvent s = some (.txRsp w, { dropSample s with txAnswers := s.txAnswers.rest })) ∨
    (resetSampled s = false ∧ s.phase = .hdw ∧ ∃ u, s.handlerReturns.head? = some u ∧
      nextEvent s = some (.handlerReturn, { dropSample s with handlerReturns := s.handlerReturns.rest })) := by
  unfold nextEvent
  by_cases hr : resetSampled s = true
  · simp [hr]
  · simp only [Bool.not_eq_true] at hr
    cases hp : s.phase with
    | idle => cases hq : s.requests.head? <;> simp [hr]
    | rxw => cases hq : s.rxStream.head? <;> simp [hr]
    | txw => cases hq : s.txAnswers.head? <;> simp [hr]
    | hdw => cases hq : s.handlerReturns.head? <;> simp [hr]

/-- A step that goes on waited, or accepted the event it was offered. -/
theorem step_cases {s t : State} (h : step s = .next t) :
    s.cfg.legal ∧ ((nextEvent s = none ∧ t = dropSample s) ∨
      ∃ e u, nextEvent s = some (e, u) ∧ onEvent e u = .next t) := by
  unfold step at h
  split at h
  · refine ⟨‹_›, ?_⟩
    unfold nextAction at h
    cases hn : nextEvent s with
    | none =>
      rw [hn] at h
      exact .inl ⟨rfl, (Host.Outcome.next.inj h).symm⟩
    | some p =>
      rw [hn] at h
      exact .inr ⟨p.1, p.2, rfl, h⟩
  · cases h

/-- The step that accepts an offered event is the transition on it. -/
theorem step_event {s u : State} {e : Event} (hl : s.cfg.legal) (h : nextEvent s = some (e, u)) :
    step s = onEvent e u := by
  simp [step, hl, nextAction, h, onEvent]

/-- With nothing offered the step only takes the sample of the reset pin. -/
theorem step_waits {s : State} (hl : s.cfg.legal) (h : nextEvent s = none) : step s = .next (dropSample s) := by
  simp [step, hl, nextAction, h, Action.perform]

theorem onEvent_hostReq (r : ReqSignals) (s : State) : onEvent (.hostReq r) s = exec (decodeReq r) s := rfl

theorem onEvent_empty (s : State) : onEvent (.rxRsp .empty) s = exec .timeout s := rfl

theorem onEvent_error (s : State) : onEvent (.rxRsp .error) s = exec .transportErr s := rfl

theorem onEvent_txRsp (w : Int) (s : State) : onEvent (.txRsp w) s = .next (writeAnswered w s) := rfl

theorem onEvent_handlerReturn (s : State) : onEvent .handlerReturn s = .next (handlerReturned s) := rfl

theorem onEvent_reset (s : State) : onEvent .reset s = .next (resetBlock s) := rfl

/-- A byte arriving in phase RXW with room for it (R132 to R135). -/
theorem onEvent_byte (b : Byte) (s : State) (hp : s.phase = .rxw) (hr : s.rlen < s.cfg.maxLen) :
    onEvent (.rxRsp (.byte b)) s =
      if b = term then exec (classify (rxPacket (storeByte b s))) (storeByte b s)
      else if s.rlen + 1 = s.cfg.maxLen then exec .oversized (storeByte b s)
      else .next (emit .rxReq (storeByte b s)) := by
  by_cases hb : b = term
  · simp [onEvent, accept, onByte, hp, hr, hb, Action.perform]
  · by_cases hf : s.rlen + 1 = s.cfg.maxLen
    · simp [onEvent, accept, onByte, hp, hr, hb, hf, Action.perform, decodeFramer]
    · simp [onEvent, accept, onByte, hp, hr, hb, hf, Action.perform]

theorem onEvent_byte_unread (b : Byte) (s : State) (hp : s.phase ≠ .rxw) :
    onEvent (.rxRsp (.byte b)) s = .next s := by
  simp [onEvent, accept, onByte, hp, Action.perform]

/-- What the classifier can answer: the nine rows of received packets and nothing else (R163). -/
theorem classify_cases (p : List Byte) :
    (∃ h k b, classify p = .reply h k b) ∨ (∃ h k, classify p = .ack h k) ∨
    (∃ h i k, classify p = .pushIr h i k) ∨ (∃ h, classify p = .pushNet h) ∨
    (∃ f, classify p = .undersized f) ∨ (∃ h k c, classify p = .error h k c) ∨
    (∃ n, classify p = .addrEnumReply n) ∨ (∃ r, classify p = .broadcast r) ∨
    (∃ h r, classify p = .unknown h r) := by
  generalize hc : classify p = i
  unfold classify at hc
  split at hc
  · subst hc; simp
  split at hc
  · subst hc; simp
  split at hc
  · subst hc; simp
  split at hc
  · subst hc; simp
  split at hc
  · subst hc; simp
  split at hc
  · subst hc; simp
  split at hc
  · subst hc; simp
  split at hc <;> (subst hc; simp)

/-- What a request code can answer: the eight rows of host operations (R36, R118). -/
theorem decodeReq_cases (r : ReqSignals) :
    decodeReq r = .recv ∨ decodeReq r = .wait ∨ decodeReq r = .send r.addr r.items ∨
    decodeReq r = .inq r.addr (shapeOfCode r.shape) r.items ∨ decodeReq r = .decode (shapeOfCode r.shape) ∨
    decodeReq r = .assign ∨ decodeReq r = .seth r.irEn r.netEn ∨ decodeReq r = .nop := by
  generalize hc : decodeReq r = i
  unfold decodeReq at hc
  split at hc
  · subst hc; simp
  split at hc
  · subst hc; simp
  split at hc
  · subst hc; simp
  split at hc
  · subst hc; simp
  split at hc
  · subst hc; simp
  split at hc
  · subst hc; simp
  split at hc <;> (subst hc; simp)

end Sys2Proof.Machine
end

