-- ==== Sys2Proof/Laws/Buffers.lean ====
section
/-! SUPPORT. Every operation that writes a buffer or a length keeps the buffers well formed: MAXLEN bytes each, the
lengths within them (R20 to R22, R84). The block has no other memory. -/

namespace Sys2Proof.Machine

open Sys2Proof.Config

theorem BuffersWf.of_eq {s t : State} (h : BuffersWf s) (hc : t.cfg = s.cfg) (h1 : t.rbuf = s.rbuf) (h2 : t.tbuf = s.tbuf)
    (h3 : t.rlen = s.rlen) (h4 : t.tlen = s.tlen) : BuffersWf t := by
  obtain ⟨a, b, c, d⟩ := h
  constructor
  · rw [h1, hc, a]
  · rw [h2, hc, b]
  · rw [h3, hc]; exact c
  · rw [h4, hc]; exact d

theorem reset_buffersWf : BuffersWf State.reset := by constructor <;> decide

theorem startFrame_buffersWf {s : State} (h : BuffersWf s) : BuffersWf (startFrame s) := by
  obtain ⟨a, b, c, d⟩ := h
  constructor <;> simp_all

theorem finish_buffersWf {s : State} (h : BuffersWf s) : BuffersWf (finish s) :=
  h.of_eq rfl rfl rfl rfl rfl

theorem emit_buffersWf {s : State} (o : Output) (h : BuffersWf s) : BuffersWf (emit o s) :=
  h.of_eq rfl rfl rfl rfl rfl

theorem storeByte_buffersWf {s : State} (b : Byte) (h : BuffersWf s) (hr : s.rlen < s.cfg.maxLen) :
    BuffersWf (storeByte b s) := by
  obtain ⟨a, c, _, d⟩ := h
  constructor <;> simp_all

theorem putByte_buffersWf {s : State} (b : Byte) (h : BuffersWf s) (ht : s.tlen < s.cfg.maxLen) :
    BuffersWf (putByte s b) := by
  obtain ⟨a, c, d, _⟩ := h
  constructor <;> simp_all

theorem decodeReply_buffersWf {s : State} (sh : Shape) (h : BuffersWf s) : BuffersWf (decodeReply sh s) :=
  h.of_eq (by simp) (by simp) (by simp) (by simp) (by simp)

theorem postCheck_buffersWf {s : State} (h : BuffersWf s) : BuffersWf (postCheck s) :=
  h.of_eq (by simp) (by simp) (by simp) (by simp) (by simp)

theorem terminal_buffersWf {s : State} (k : Kind) (c : Byte) (h : BuffersWf s) : BuffersWf (terminal k c s) := by
  have hl : BuffersWf (latch k c s) := h.of_eq rfl rfl rfl rfl rfl
  rcases terminal_cases k c s with ⟨_, e⟩ | ⟨_, _, e⟩ | ⟨_, _, e⟩ <;> rw [e]
  · exact finish_buffersWf hl
  · exact startFrame_buffersWf hl
  · exact finish_buffersWf (postCheck_buffersWf hl)

theorem deliverPush_buffersWf {s : State} (en : Bool) (o : Output) (h : BuffersWf s) : BuffersWf (deliverPush en o s) := by
  unfold deliverPush
  split
  · exact h.of_eq rfl rfl rfl rfl rfl
  · exact startFrame_buffersWf h

theorem handlerReturned_buffersWf {s : State} (h : BuffersWf s) : BuffersWf (handlerReturned s) := by
  unfold handlerReturned
  split
  · exact startFrame_buffersWf h
  · exact h

theorem buildAndWrite_buffersWf {s t : State} {addr : Byte} {p : List Byte} (h : BuffersWf s)
    (e : buildAndWrite addr p s = .next t) : BuffersWf t := by
  obtain ⟨hl, rfl⟩ := buildAndWrite_next _ _ _ _ e
  obtain ⟨a, b, c, _⟩ := h
  constructor <;> simp_all

theorem writeAnswered_buffersWf {s : State} (w : Int) (h : BuffersWf s) : BuffersWf (writeAnswered w s) := by
  rcases writeAnswered_cases w s with ⟨_, e⟩ | ⟨_, _, e⟩ | ⟨_, _, e⟩ <;> rw [e]
  · exact h
  · exact h.of_eq rfl rfl rfl rfl rfl
  · exact startFrame_buffersWf h

theorem resetBlock_buffersWf (s : State) : BuffersWf (resetBlock s) := by constructor <;> simp

end Sys2Proof.Machine
end

