-- ==== Sys2Proof/Laws/Encoding.lean ====
section
/-! SUPPORT. Nibbles and bytes, the shape codes, and what makes a packet decodable. -/

namespace Sys2Proof

open Sys2Proof.Config Sys2Proof.Machine

@[simp] theorem hiNib_joinNib (h l : Nibble) : hiNib (joinNib h l) = h := by revert h l; decide

@[simp] theorem loNib_joinNib (h l : Nibble) : loNib (joinNib h l) = l := by revert h l; decide

theorem joinNib_hiNib_loNib (b : Byte) : joinNib (hiNib b) (loNib b) = b := by revert b; decide

/-- A byte with a high nibble other than F is no terminator. -/
theorem joinNib_ne_term (h l : Nibble) (hh : h ≠ 15#4) : joinNib h l ≠ term := by revert h l; decide

theorem ne_term_of_hiNib {b : Byte} (h : hiNib b ≠ 15#4) : b ≠ term := by revert b; decide

theorem destByte_addrOperand (a : Nibble) : destByte (addrOperand a) = joinNib 8#4 a := by revert a; decide

@[simp] theorem shapeOfCode_shapeCode (sh : Shape) : shapeOfCode (shapeCode sh) = sh := by cases sh <;> decide

@[simp] theorem expand_literalItems (bs : List Byte) : expand (literalItems bs) = bs := by
  simp [expand, literalItems, expandItem, List.flatMap_map]

@[simp] theorem byteAt_cons_zero (b : Byte) (bs : List Byte) : byteAt (b :: bs) 0 = b := rfl

@[simp] theorem byteAt_cons_succ (b : Byte) (bs : List Byte) (i : Nat) : byteAt (b :: bs) (i + 1) = byteAt bs i := rfl

/-- Bytes without a terminator, and one behind them, are a packet if they fit MAXLEN (R90). -/
theorem decodeRx_packet (prm : Params) (q : List Byte) (h : noTerm q = true) (hl : q.length + 1 ≤ prm.maxLen) :
    decodeRx prm (q ++ [term]) = .ok (classify (q ++ [term])) := by
  simp [decodeRx, h]; omega

/-- Everything a packet that decodes can be (R90). -/
theorem decodeRx_inv {prm : Params} {p : List Byte} {i : Instr} (h : decodeRx prm p = .ok i) :
    ∃ q, p = q ++ [term] ∧ noTerm q = true ∧ q.length + 1 ≤ prm.maxLen ∧ i = classify (q ++ [term]) := by
  simp only [decodeRx] at h
  split at h <;> try cases h
  split at h <;> try cases h
  split at h <;> try cases h
  split at h <;> cases h
  rename_i h1 h2 h3 h4
  simp only [ne_eq, Decidable.not_not] at h2
  refine ⟨p.dropLast, (List.dropLast_append_getLast? _ h2).symm, by simpa using h3, ?_, ?_⟩
  · have : p.length ≠ 0 := by simpa using h1
    simp; omega
  · rw [List.dropLast_append_getLast? _ h2]

/-- A destination byte, a payload that fits and the terminator are a transmitted packet (R92, R93). -/
theorem decodeTx_packet (prm : Params) (sh : BitVec 2) (a : Nibble) (p : List Byte) (hl : p.length + 2 ≤ prm.maxLen) :
    decodeTx prm sh (joinNib 8#4 a :: (p ++ [term])) = .ok (txFormat prm sh a p) := by
  simp [decodeTx]; omega

/-- Joined numbers are equal when their parts are. -/
theorem append_eq_append {n : Nat} (a c : BitVec n) (b d : Byte) : a ++ b = c ++ d ↔ a = c ∧ b = d := by
  constructor
  · intro h
    have h2 := congrArg (fun v => v.extractLsb' 8 n) h
    have h3 := congrArg (fun v => v.extractLsb' 0 8) h
    simp only [BitVec.extractLsb'_append_eq_left, BitVec.extractLsb'_append_eq_right] at h2 h3
    exact ⟨h2, h3⟩
  · rintro ⟨rfl, rfl⟩; rfl

/-- A mask and match test of the first four bytes is one of each byte (R117). -/
theorem firstFour_mask (p : List Byte) (m0 m1 m2 m3 v0 v1 v2 v3 : Byte) :
    (firstFour p &&& (m0 ++ m1 ++ m2 ++ m3 : BitVec 32)) = (v0 ++ v1 ++ v2 ++ v3 : BitVec 32) ↔
    byteAt p 0 &&& m0 = v0 ∧ byteAt p 1 &&& m1 = v1 ∧ byteAt p 2 &&& m2 = v2 ∧ byteAt p 3 &&& m3 = v3 := by
  unfold firstFour
  rw [BitVec.and_append, BitVec.and_append, BitVec.and_append, append_eq_append, append_eq_append, append_eq_append]
  tauto

theorem and_hiMask (b : Byte) (n : Nibble) : b &&& 0xF0#8 = joinNib n 0 ↔ hiNib b = n := by revert b n; decide

theorem and_allMask (b : Byte) : b &&& 0xFF#8 = b := by revert b; decide

theorem and_noMask (b : Byte) : b &&& 0#8 = 0#8 := by revert b; decide

end Sys2Proof
end

