-- ==== Sys2Proof/Laws/PerInstr.lean ====
section
/-! SUPPORT. For each instruction: the bytes of its encoding, where it has any, are a packet that fits MAXLEN and ends
with the terminator (R90, R92). -/

namespace Sys2Proof.Laws.EncodingFits

open Sys2Proof Sys2Proof.Config Sys2Proof.Machine

/-- The bytes of a raw form fit MAXLEN and end with the terminator. -/
def ImageFits (prm : Params) : Image → Prop
  | .rx p => p.length ≤ prm.maxLen ∧ p.getLast? = some term
  | .tx _ p => p.length ≤ prm.maxLen ∧ p.getLast? = some term
  | .framer _ => True
  | .item _ => True
  | .req _ => True
  | .line _ => True
  | .shape _ => True

/-- The encoding of the instruction fits, if it is well formed. -/
def Statement (i : Instr) : Prop :=
  ∀ prm : Params, prm.legal → wellFormed prm i = true → ImageFits prm (encode prm i)

theorem reply (hdr : Byte) (socket : Nibble) (payload : List Byte) : Statement (.reply hdr socket payload) := by
  intro prm hl hw
  simp only [Params.legal] at hl
  simp [wellFormed] at hw
  simp [encode, ImageFits, List.getLast?_cons, List.getLast?_append]
  omega

theorem ack (hdr : Byte) (socket : Nibble) : Statement (.ack hdr socket) := by
  intro prm hl hw
  simp only [Params.legal] at hl
  simp [wellFormed] at hw
  simp [encode, ImageFits, List.getLast?_cons]
  omega

theorem pushIr (hdr irId key : Byte) : Statement (.pushIr hdr irId key) := by
  intro prm hl hw
  simp only [Params.legal] at hl
  simp [wellFormed] at hw
  simp [encode, ImageFits, List.getLast?_cons]
  omega

theorem pushNet (hdr : Byte) : Statement (.pushNet hdr) := by
  intro prm hl hw
  simp only [Params.legal] at hl
  simp [wellFormed] at hw
  simp [encode, ImageFits, List.getLast?_cons]
  omega

theorem undersized (first : Option Byte) : Statement (.undersized first) := by
  intro prm hl _
  simp only [Params.legal] at hl
  cases first <;> simp [encode, ImageFits] <;> omega

theorem error (hdr : Byte) (socket : Nibble) (code : Byte) : Statement (.error hdr socket code) := by
  intro prm hl hw
  simp only [Params.legal] at hl
  simp [wellFormed] at hw
  simp [encode, ImageFits, List.getLast?_cons]
  omega

theorem addrEnumReply (n : Byte) : Statement (.addrEnumReply n) := by
  intro prm hl hw
  simp only [Params.legal] at hl
  simp [wellFormed] at hw
  simp [encode, ImageFits, List.getLast?_cons]
  omega

theorem broadcast (rest : List Byte) : Statement (.broadcast rest) := by
  intro prm hl hw
  simp only [Params.legal] at hl
  simp [wellFormed] at hw
  simp [encode, ImageFits, List.getLast?_cons, List.getLast?_append]
  omega

theorem unknown (hdr : Byte) (rest : List Byte) : Statement (.unknown hdr rest) := by
  intro prm hl hw
  simp only [Params.legal] at hl
  simp [wellFormed] at hw
  simp [encode, ImageFits, List.getLast?_cons, List.getLast?_append]
  omega

theorem oversized : Statement .oversized := fun _ _ _ => trivial

theorem timeout : Statement .timeout := fun _ _ _ => trivial

theorem transportErr : Statement .transportErr := fun _ _ _ => trivial

theorem txGeneric (a : Nibble) (p : List Byte) : Statement (.txGeneric a p) := by
  intro prm hl hw
  simp only [Params.legal] at hl
  simp [wellFormed, payloadFits] at hw
  simp [encode, ImageFits, List.getLast?_cons, List.getLast?_append]
  omega

theorem command (a : Nibble) (op : List Byte) : Statement (.command a op) := by
  intro prm hl hw
  simp only [Params.legal] at hl
  simp [wellFormed, payloadFits] at hw
  simp [encode, ImageFits, List.getLast?_cons, List.getLast?_append]
  omega

theorem inquiry (a : Nibble) (sh : Shape) (op : List Byte) : Statement (.inquiry a sh op) := by
  intro prm hl hw
  simp only [Params.legal] at hl
  simp [wellFormed, payloadFits] at hw
  simp [encode, ImageFits, List.getLast?_cons, List.getLast?_append]
  omega

theorem addressSet : Statement .addressSet := by
  intro prm hl hw
  simp only [Params.legal] at hl
  simp [wellFormed, payloadFits] at hw
  simp [encode, ImageFits, List.getLast?_cons, List.getLast?_append]
  omega

theorem cancel (a k : Nibble) : Statement (.cancel a k) := by
  intro prm hl hw
  simp only [Params.legal] at hl
  simp [wellFormed, payloadFits] at hw
  simp [encode, ImageFits, List.getLast?_cons]
  omega

theorem nibbleByte (n : Nibble) : Statement (.nibbleByte n) := fun _ _ _ => trivial

theorem recv : Statement .recv := fun _ _ _ => trivial

theorem wait : Statement .wait := fun _ _ _ => trivial

theorem send (addr : Byte) (items : List Item) : Statement (.send addr items) := fun _ _ _ => trivial

theorem inq (addr : Byte) (sh : Shape) (items : List Item) : Statement (.inq addr sh items) := fun _ _ _ => trivial

theorem decode (sh : Shape) : Statement (.decode sh) := fun _ _ _ => trivial

theorem assign : Statement .assign := fun _ _ _ => trivial

theorem seth (ir net : Bool) : Statement (.seth ir net) := fun _ _ _ => trivial

theorem nop : Statement .nop := fun _ _ _ => trivial

theorem commandPseudo (addr : Byte) (items : List Item) : Statement (.commandPseudo addr items) := fun _ _ _ => trivial

theorem inquiryPseudo (addr : Byte) (sh : Shape) (items : List Item) : Statement (.inquiryPseudo addr sh items) := fun _ _ _ => trivial

theorem cancelPseudo (addr : Byte) (k : Nibble) : Statement (.cancelPseudo addr k) := fun _ _ _ => trivial

theorem addrsetPseudo : Statement .addrsetPseudo := fun _ _ _ => trivial

theorem shapeS4 : Statement .shapeS4 := fun _ _ _ => trivial

theorem shapeS16 : Statement .shapeS16 := fun _ _ _ => trivial

theorem shapeS16x2 : Statement .shapeS16x2 := fun _ _ _ => trivial

theorem shapeS32 : Statement .shapeS32 := fun _ _ _ => trivial

end Sys2Proof.Laws.EncodingFits
end

