-- ==== Sys2Proof/Laws/Runs.lean ====
section
/-! SUPPORT. Runs of the machine, step by step and end to end. -/

namespace Sys2Proof.Machine

theorem run_zero (s : State) : Host.Core.run Sys2Proof.core 0 s = .next s := rfl

/-- A run whose first step goes on is the rest of the run from there. -/
theorem run_succ {s t : State} (n : Nat) (h : step s = .next t) :
    Host.Core.run Sys2Proof.core (n + 1) s = Host.Core.run Sys2Proof.core n t := by
  simp only [Host.Core.run, show Sys2Proof.core.step s = step s from rfl, h]

theorem run_one (s : State) : Host.Core.run Sys2Proof.core 1 s = step s := by
  cases h : step s with
  | next t => exact run_succ 0 h
  | fault r => simp only [Host.Core.run, show Sys2Proof.core.step s = step s from rfl, h]; rfl
  | refused r => simp only [Host.Core.run, show Sys2Proof.core.step s = step s from rfl, h]; rfl

/-- A run goes on from where an earlier part of it arrived. -/
theorem run_add {m : Nat} {s t : State} (n : Nat) (h : Host.Core.run Sys2Proof.core m s = .next t) :
    Host.Core.run Sys2Proof.core (m + n) s = Host.Core.run Sys2Proof.core n t := by
  induction m generalizing s with
  | zero => cases h; simp
  | succ m ih =>
    cases hs : step s with
    | next u =>
      rw [run_succ _ hs] at h
      rw [Nat.add_right_comm, run_succ _ hs, ih h]
    | fault r => simp [Host.Core.run, show Sys2Proof.core.step s = step s from rfl, hs] at h
    | refused r => simp [Host.Core.run, show Sys2Proof.core.step s = step s from rfl, hs] at h

end Sys2Proof.Machine
end

