-- ==== Sys2Proof/Tests/Slice0.lean ====
section
/-! SUPPORT. Small tests: ill-formed instructions are refused, the spec's example packets decode to their rows, single
steps give the results the spec's examples and vectors state (spec/95_test_vectors.md), and each obligation's
hypotheses are met somewhere. -/

namespace Sys2Proof.Tests

open Sys2Proof Sys2Proof.Config Sys2Proof.Machine

/-! ## Helpers -/

/-- The next state of an answer. -/
def nextOf : Answer → Option State
  | .next s => some s
  | .fault _ => none
  | .refused _ => none

/-- Kind, result, phase and camera count. -/
def outcome (a : Answer) : Option (Kind × Byte × Phase × BitVec 3) :=
  (nextOf a).map fun t => (t.kind, t.result, t.phase, t.camcnt)

/-- The transmitted packet, the mode and the phase. -/
def sent (a : Answer) : Option (List Byte × Mode × Phase) :=
  (nextOf a).map fun t => (t.tbuf.take t.tlen, t.mode, t.phase)

/-- The block in the middle of a framing: the bytes stored, the answers to come. -/
def reading (m : Mode) (bytes : List Byte) (rest : List RxAnswer) : State :=
  { State.reset with
    phase := .rxw, mode := m, rbuf := bytes ++ List.replicate (16 - bytes.length) 0, rlen := bytes.length,
    rxStream := { once := rest }, outputs := [.rxReq] }

/-- The block with a packet of `n` bytes handed over, the answer to the write to come. -/
def writing (n : Nat) (answers : List Int) : State :=
  { State.reset with
    phase := .txw, mode := .send, tlen := n, txAnswers := { once := answers },
    outputs := [.txReq (List.replicate n 0)] }

/-- The block with a push event handed over. -/
def handling (returns : Nat) : State :=
  { State.reset with phase := .hdw, mode := .wait, handlerReturns := { once := List.replicate returns () }, outputs := [.netEvent 2] }

/-- The block after an operation that ended with a Reply. -/
def replied (packet : List Byte) : State :=
  { State.reset with kind := .reply, rbuf := packet ++ List.replicate (16 - packet.length) 0, rlen := packet.length }

/-- The smallest parameters. -/
def tight : Params := { maxLen := 3 }

/-! ## Ill-formed instructions are refused -/

theorem test_wf_reply_header : wellFormed Params.default (.reply 0xFF 0 []) = false := by decide
theorem test_wf_reply_payload : wellFormed Params.default (.reply 0x90 0 [0xFF]) = false := by decide
theorem test_wf_reply_length : wellFormed Params.default (.reply 0x90 0 (List.replicate 14 0)) = false := by decide
theorem test_wf_ack : wellFormed Params.default (.ack 0xFF 1) = false := by decide
theorem test_wf_pushIr : wellFormed Params.default (.pushIr 0x90 0xFF 0) = false := by decide
theorem test_wf_pushIr_length : wellFormed tight (.pushIr 0x90 0 0) = false := by decide
theorem test_wf_pushNet : wellFormed Params.default (.pushNet 0xFF) = false := by decide
theorem test_wf_undersized : wellFormed Params.default (.undersized (some 0xFF)) = false := by decide
theorem test_wf_error : wellFormed Params.default (.error 0x90 0 0xFF) = false := by decide
theorem test_wf_error_length : wellFormed tight (.error 0x90 0 0x41) = false := by decide
theorem test_wf_addrEnumReply : wellFormed Params.default (.addrEnumReply 0xFF) = false := by decide
theorem test_wf_addrEnumReply_length : wellFormed tight (.addrEnumReply 4) = false := by decide
theorem test_wf_broadcast_earlier_row : wellFormed Params.default (.broadcast [0x50]) = false := by decide
theorem test_wf_broadcast_bytes : wellFormed Params.default (.broadcast [0x01, 0xFF]) = false := by decide
theorem test_wf_broadcast_length : wellFormed Params.default (.broadcast (List.replicate 15 0)) = false := by decide
theorem test_wf_unknown_earlier_row : wellFormed Params.default (.unknown 0x88 [0x01]) = false := by decide
theorem test_wf_unknown_bytes : wellFormed Params.default (.unknown 0xFF [0x01]) = false := by decide
theorem test_wf_unknown_length : wellFormed Params.default (.unknown 0x90 (List.replicate 15 0)) = false := by decide
theorem test_wf_txGeneric_command : wellFormed Params.default (.txGeneric 1 [0x01]) = false := by decide
theorem test_wf_txGeneric_address_set : wellFormed Params.default (.txGeneric 8 [0x30, 0x01]) = false := by decide
theorem test_wf_txGeneric_length : wellFormed Params.default (.txGeneric 1 (List.replicate 15 0)) = false := by decide
theorem test_wf_command_length : wellFormed Params.default (.command 1 (List.replicate 14 0)) = false := by decide
theorem test_wf_command_address_set :
    wellFormed { addrsetPayload := [0x01, 0x02] } (.command 8 [0x02]) = false := by decide
theorem test_wf_inquiry_length : wellFormed Params.default (.inquiry 1 .s4 (List.replicate 14 0)) = false := by decide
theorem test_wf_inquiry_address_set :
    wellFormed { addrsetPayload := [0x09] } (.inquiry 8 .s4 []) = false := by decide
theorem test_wf_addressSet : wellFormed tight .addressSet = false := by decide
theorem test_wf_cancel_length : wellFormed { maxLen := 2 } (.cancel 1 1) = false := by decide
theorem test_wf_cancel_address_set : wellFormed { addrsetPayload := [0x21] } (.cancel 8 1) = false := by decide
theorem test_wf_send : wellFormed Params.default (.send 1 [.n32 0, .n32 0]) = false := by decide
theorem test_wf_inq : wellFormed Params.default (.inq 1 .s4 [.n32 0, .n32 0]) = false := by decide
theorem test_wf_assign : wellFormed tight .assign = false := by decide
theorem test_wf_commandPseudo : wellFormed Params.default (.commandPseudo 1 [.n32 0, .n16 0, .n4 0, .n4 0]) = false := by
  decide
theorem test_wf_inquiryPseudo :
    wellFormed Params.default (.inquiryPseudo 1 .s4 [.n32 0, .n16 0, .n4 0, .n4 0]) = false := by decide
theorem test_wf_cancelPseudo : wellFormed { maxLen := 2 } (.cancelPseudo 1 1) = false := by decide
theorem test_wf_addrsetPseudo : wellFormed tight .addrsetPseudo = false := by decide

/-! ## Decoding: received packets (95_test_vectors.md, S-table and 2.2) -/

/-- V3 -/
theorem test_decode_reply : decode Params.default (.rx [0x90, 0x50, 0x02, 0xFF]) = .ok (.reply 0x90 0 [0x02]) := by decide
/-- V5: rule 1 before rule 8 -/
theorem test_decode_reply_broadcast_header : decode Params.default (.rx [0x88, 0x50, 0xFF]) = .ok (.reply 0x88 0 []) := by
  decide
/-- V6 -/
theorem test_decode_ack : decode Params.default (.rx [0x90, 0x41, 0xFF]) = .ok (.ack 0x90 1) := by decide
/-- V11: rule 3 before rule 8 -/
theorem test_decode_pushIr :
    decode Params.default (.rx [0x88, 0x07, 0x7D, 0x02, 0x05, 0x10, 0xFF]) = .ok (.pushIr 0x88 0x05 0x10) := by decide
/-- V15 -/
theorem test_decode_pushNet : decode Params.default (.rx [0xA0, 0x38, 0xFF]) = .ok (.pushNet 0xA0) := by decide
/-- V20: rule 5 before rule 8 -/
theorem test_decode_undersized : decode Params.default (.rx [0x88, 0xFF]) = .ok (.undersized (some 0x88)) := by decide
/-- V22 -/
theorem test_decode_error : decode Params.default (.rx [0x90, 0x60, 0x41, 0xFF]) = .ok (.error 0x90 0 0x41) := by decide
/-- V29 -/
theorem test_decode_addrEnumReply : decode Params.default (.rx [0x88, 0x30, 0x04, 0xFF]) = .ok (.addrEnumReply 4) := by
  decide
/-- V36: rule 7 needs length 4 -/
theorem test_decode_broadcast : decode Params.default (.rx [0x88, 0x30, 0xFF]) = .ok (.broadcast [0x30]) := by decide
/-- V8: type 4 with length 4 -/
theorem test_decode_unknown : decode Params.default (.rx [0x90, 0x41, 0x00, 0xFF]) = .ok (.unknown 0x90 [0x41, 0x00]) := by
  decide
/-- V13: the IR pattern with length 6 -/
theorem test_decode_unknown_ir :
    decode Params.default (.rx [0x90, 0x07, 0x7D, 0x02, 0x01, 0xFF]) = .ok (.unknown 0x90 [0x07, 0x7D, 0x02, 0x01]) := by
  decide
theorem test_decode_oversized : decode Params.default (.framer .bound) = .ok .oversized := by decide
theorem test_decode_timeout : decode Params.default (.framer .empty) = .ok .timeout := by decide
theorem test_decode_transportErr : decode Params.default (.framer .error) = .ok .transportErr := by decide

/-! ## Decoding: transmitted packets, items, requests, abbreviations, shapes -/

/-- R92, R203 -/
theorem test_decode_txGeneric : decode Params.default (.tx 0 [0x80, 0xFF]) = .ok (.txGeneric 0 []) := by decide
/-- EV1 -/
theorem test_decode_command :
    decode Params.default (.tx 0 [0x81, 0x01, 0x04, 0x00, 0x02, 0xFF]) = .ok (.command 1 [0x04, 0x00, 0x02]) := by decide
/-- EV14, with shape S16 -/
theorem test_decode_inquiry :
    decode Params.default (.tx 1 [0x87, 0x09, 0x06, 0x12, 0xFF]) = .ok (.inquiry 7 .s16 [0x06, 0x12]) := by decide
/-- EV2 -/
theorem test_decode_addressSet : decode Params.default (.tx 0 [0x88, 0x30, 0x01, 0xFF]) = .ok .addressSet := by decide
/-- R96 -/
theorem test_decode_cancel : decode Params.default (.tx 0 [0x81, 0x22, 0xFF]) = .ok (.cancel 1 2) := by decide
/-- R97 -/
theorem test_decode_nibbleByte : decode Params.default (.item 0x0D) = .ok (.nibbleByte 0xD) := by decide
/-- R36, R118: the eight request codes -/
theorem test_decode_recv : decode Params.default (.req { op := 1 }) = .ok .recv := by decide
theorem test_decode_wait : decode Params.default (.req { op := 2 }) = .ok .wait := by decide
theorem test_decode_send :
    decode Params.default (.req { op := 3, addr := 0x17, items := [.n4 0xC] }) = .ok (.send 0x17 [.n4 0xC]) := by decide
theorem test_decode_inq :
    decode Params.default (.req { op := 4, addr := 1, shape := 2, items := [.b 9] }) = .ok (.inq 1 .s16x2 [.b 9]) := by
  decide
theorem test_decode_decode : decode Params.default (.req { op := 5, shape := 3 }) = .ok (.decode .s32) := by decide
theorem test_decode_assign : decode Params.default (.req { op := 6 }) = .ok .assign := by decide
theorem test_decode_seth : decode Params.default (.req { op := 7, irEn := true }) = .ok (.seth true false) := by decide
theorem test_decode_nop : decode Params.default (.req { op := 0 }) = .ok .nop := by decide
/-- R116 -/
theorem test_decode_commandPseudo :
    decode Params.default (.line { name := .command, addr := 1, items := [.b 4] }) = .ok (.commandPseudo 1 [.b 4]) := by
  decide
theorem test_decode_inquiryPseudo :
    decode Params.default (.line { name := .inquiry, addr := 1, shape := 1, items := [.b 4] }) =
      .ok (.inquiryPseudo 1 .s16 [.b 4]) := by decide
theorem test_decode_cancelPseudo :
    decode Params.default (.line { name := .cancel, addr := 1, socket := 2 }) = .ok (.cancelPseudo 1 2) := by decide
theorem test_decode_addrsetPseudo : decode Params.default (.line { name := .addrset }) = .ok .addrsetPseudo := by decide
/-- R210 -/
theorem test_decode_shapes :
    [0, 1, 2, 3].map (fun c => decode Params.default (.shape c)) =
      [.ok .shapeS4, .ok .shapeS16, .ok .shapeS16x2, .ok .shapeS32] := by decide

/-! ## What is no packet (R90, R92, R93, R97) -/

theorem test_decode_empty : decode Params.default (.rx []) = .error .emptyPacket := by decide
theorem test_decode_no_terminator : decode Params.default (.rx [0x90, 0x50]) = .error .noTerminator := by decide
theorem test_decode_terminator_inside :
    decode Params.default (.rx [0x90, 0xFF, 0xFF]) = .error .terminatorInside := by decide
theorem test_decode_too_long :
    decode Params.default (.rx (List.replicate 16 0 ++ [0xFF])) = .error .packetTooLong := by decide
theorem test_decode_destination : decode Params.default (.tx 0 [0x90, 0x01, 0xFF]) = .error .badDestination := by decide
theorem test_decode_too_short : decode Params.default (.tx 0 [0x81]) = .error .packetTooShort := by decide
theorem test_decode_not_a_nibble_byte : decode Params.default (.item 0x1D) = .error .notANibbleByte := by decide

/-! ## The encoder's arithmetic (2.4: EV3, EV6, EV10) -/

theorem test_address_masked : encodePacket 0x17 [0x01, 0x06, 0x04] = [0x87, 0x01, 0x06, 0x04, 0xFF] := by decide
theorem test_expand_n32 :
    expand [.n32 0xDEADBEEF] = [0x0D, 0x0E, 0x0A, 0x0D, 0x0B, 0x0E, 0x0E, 0x0F] := by decide
theorem test_expand_mixed :
    expand [.b 1, .b 6, .b 2, .n4 0xC, .n4 0xA, .n16 0xFE0C, .n16 0x0123] =
      [1, 6, 2, 0x0C, 0x0A, 0x0F, 0x0E, 0x00, 0x0C, 0x00, 0x01, 0x02, 0x03] := by decide
/-- V12: a header below 80 -/
theorem test_camera_index_negative : camIndex 0x10 = -7 ∧ camPort 0x10 = 0b1001 := by decide

/-! ## One operation on a small state -/

/-- V2, HV1 -/
theorem test_reply_ends : outcome (exec (.reply 0x90 1 []) (reading .wait [0x90, 0x51, 0xFF] [])) =
    some (.reply, 0x00, .idle, 0) := by decide
/-- R184: an inquiry whose reply has the wrong length -/
theorem test_reply_wrong_shape : outcome (exec (.reply 0x90 1 []) (reading .inq [0x90, 0x51, 0xFF] [])) =
    some (.reply, 0xFA, .idle, 0) := by decide
/-- FV12 and HV2 -/
theorem test_ack_recv : outcome (exec (.ack 0x90 1) (reading .recv [0x90, 0x41, 0xFF] [])) =
    some (.ack, 0xD0, .idle, 0) := by decide
theorem test_ack_absorbed : outcome (exec (.ack 0x90 1) (reading .wait [0x90, 0x41, 0xFF] [])) =
    some (.ack, 0xD0, .rxw, 0) := by decide
/-- V12, its index on the 4-bit port -/
theorem test_pushIr_delivered :
    (nextOf (exec (.pushIr 0x10 0x05 0x10) { reading .wait [] [] with irEn := true })).map (·.outputs) =
      some [.rxReq, .irEvent 0b1001 0x05 0x10] := by decide
theorem test_pushIr_dropped :
    (nextOf (exec (.pushIr 0x10 0x05 0x10) (reading .wait [] []))).map (·.outputs) = some [.rxReq, .rxReq] := by decide
/-- V15 -/
theorem test_pushNet_delivered :
    (nextOf (exec (.pushNet 0xA0) { reading .wait [] [] with netEn := true })).map (fun t => (t.outputs, t.phase)) =
      some ([.rxReq, .netEvent 2], .hdw) := by decide
/-- V19 -/
theorem test_undersized : outcome (exec (.undersized (some 0x90)) (reading .recv [0x90, 0xFF] [])) =
    some (.undersized, 0xFC, .idle, 0) := by decide
/-- V25: an Error with the code of an Acknowledge is terminal -/
theorem test_error_code_d0 : outcome (exec (.error 0x90 0 0xD0) (reading .wait [0x90, 0x60, 0xD0, 0xFF] [])) =
    some (.error, 0xD0, .idle, 0) := by decide
/-- V24: an Error with code 0 is no success -/
theorem test_error_code_zero : success .error 0x00 = false := by decide
/-- V31 and V33, in ASSIGN -/
theorem test_enumeration_seven : outcome (exec (.addrEnumReply 8) (reading .assign [] [])) =
    some (.addrEnum, 0x00, .idle, 7) := by decide
theorem test_enumeration_eight : outcome (exec (.addrEnumReply 9) (reading .assign [] [])) =
    some (.unknown, 0xFB, .idle, 0) := by decide
/-- V38 in RECV; in ASSIGN it is unexpected (R233) -/
theorem test_broadcast : outcome (exec (.broadcast [1, 0, 1]) (reading .recv [] [])) = some (.broadcast, 0x00, .idle, 0) := by
  decide
theorem test_broadcast_assign : outcome (exec (.broadcast [1, 0, 1]) (reading .assign [] [])) =
    some (.broadcast, 0xFA, .idle, 0) := by decide
/-- V40 -/
theorem test_unknown : outcome (exec (.unknown 0 [0]) (reading .recv [] [])) = some (.unknown, 0xFB, .idle, 0) := by decide
/-- EV1, by COMMAND, SEND and the abbreviation -/
theorem test_command : sent (exec (.command 1 [0x04, 0x00, 0x02]) State.reset) =
    some ([0x81, 0x01, 0x04, 0x00, 0x02, 0xFF], .send, .txw) := by decide
theorem test_commandPseudo : sent (exec (.commandPseudo 1 [.b 0x04, .b 0x00, .b 0x02]) State.reset) =
    some ([0x81, 0x01, 0x04, 0x00, 0x02, 0xFF], .send, .txw) := by decide
/-- EV5 -/
theorem test_send : sent (exec (.send 1 [.b 0x01, .b 0x04, .b 0x47, .n16 0x1234]) State.reset) =
    some ([0x81, 0x01, 0x04, 0x47, 0x01, 0x02, 0x03, 0x04, 0xFF], .send, .txw) := by decide
/-- EV12: 15 payload bytes -/
theorem test_send_too_long : nextOf (exec (.send 1 [.b 1, .n32 0x01234567, .b 2, .b 3, .b 4, .b 5, .b 6, .b 7]) State.reset) =
    none := by decide
/-- EV4 -/
theorem test_txGeneric : sent (exec (.txGeneric 0 []) State.reset) = some ([0x80, 0xFF], .send, .txw) := by decide
/-- EV14's packet, sent by INQ with shape S16 -/
theorem test_inq : sent (exec (.inq 0x07 .s16 [.b 0x09, .b 0x06, .b 0x12]) State.reset) =
    some ([0x87, 0x09, 0x06, 0x12, 0xFF], .inq, .txw) := by decide
theorem test_inquiry : sent (exec (.inquiry 7 .s16 [0x06, 0x12]) State.reset) =
    some ([0x87, 0x09, 0x06, 0x12, 0xFF], .inq, .txw) := by decide
theorem test_inquiryPseudo : sent (exec (.inquiryPseudo 7 .s16 [.b 0x06, .b 0x12]) State.reset) =
    some ([0x87, 0x09, 0x06, 0x12, 0xFF], .inq, .txw) := by decide
/-- EV2's bytes: ASSIGN has the post-check, the abbreviation has not -/
theorem test_assign : sent (exec .assign State.reset) = some ([0x88, 0x30, 0x01, 0xFF], .assign, .txw) := by decide
theorem test_addressSet : sent (exec .addressSet State.reset) = some ([0x88, 0x30, 0x01, 0xFF], .assign, .txw) := by decide
theorem test_addrsetPseudo : sent (exec .addrsetPseudo State.reset) = some ([0x88, 0x30, 0x01, 0xFF], .send, .txw) := by
  decide
/-- R96, R238 -/
theorem test_cancel : sent (exec (.cancel 1 2) State.reset) = some ([0x81, 0x22, 0xFF], .send, .txw) := by decide
theorem test_cancelPseudo : sent (exec (.cancelPseudo 1 2) State.reset) = some ([0x81, 0x22, 0xFF], .send, .txw) := by
  decide
/-- R97: one digit at `tlen` -/
theorem test_nibbleByte : (nextOf (exec (.nibbleByte 0xD) State.reset)).map (fun t => t.tbuf.take t.tlen) = some [0x0D] := by
  decide
theorem test_recv : (nextOf (exec .recv State.reset)).map (fun t => (t.mode, t.phase, t.rlen, t.outputs)) =
    some (.recv, .rxw, 0, [.rxReq]) := by decide
theorem test_wait_busy : (nextOf (exec .wait (writing 2 []))).map (·.phase) = some .txw := by decide
/-- R216's example -/
theorem test_decode_s16x2 :
    (nextOf (exec (.decode .s16x2) (replied [0x90, 0x50, 1, 2, 3, 4, 0x0A, 0x0B, 0x0C, 0x0D, 0xFF]))).map
      (fun t => (t.val0, t.val1, t.result)) = some (0x1234, 0xABCD, 0x00) := by decide
theorem test_decode_s16_length :
    (nextOf (exec (.decode .s16) (replied [0x90, 0x50, 1, 2, 3, 4, 0x0A, 0x0B, 0x0C, 0x0D, 0xFF]))).map
      (fun t => (t.val0, t.val1, t.result)) = some (0, 0, 0xFA) := by decide
theorem test_seth : (nextOf (exec (.seth true false) State.reset)).map (fun t => (t.irEn, t.netEn, t.outputs)) =
    some (true, false, [.done .none 0x00]) := by decide
theorem test_nop : nextOf (exec .nop State.reset) = some State.reset := by decide
/-- DV1 -/
theorem test_shapeS4 : (nextOf (exec .shapeS4 (replied [0x90, 0x50, 0x0A, 0xFF]))).map (fun t => (t.val0, t.result)) =
    some (0x0A, 0x00) := by decide
/-- S1: v = 0x8000, and high nibbles that are not examined (R212) -/
theorem test_shapeS16 :
    (nextOf (exec .shapeS16 (replied [0x90, 0x50, 0xF8, 0x10, 0x20, 0x30, 0xFF]))).map (·.val0) = some 0x8000 := by decide
/-- S2 -/
theorem test_shapeS16x2 :
    (nextOf (exec .shapeS16x2 (replied [0x90, 0x50, 1, 2, 3, 4, 0x0A, 0x0B, 0x0C, 0x0D, 0xFF]))).map
      (fun t => (t.val0, t.val1)) = some (0x1234, 0xABCD) := by decide
theorem test_shapeS32 :
    (nextOf (exec .shapeS32 (replied [0x90, 0x50, 0x0D, 0x0E, 0x0A, 0x0D, 0x0B, 0x0E, 0x0E, 0x0F, 0xFF]))).map (·.val0) =
      some 0xDEADBEEF := by decide

/-! ## Single steps -/

/-- FV9: a terminator at index 0 -/
theorem test_step_bare_terminator : outcome (step (reading .recv [] [.byte 0xFF])) =
    some (.undersized, 0xFC, .idle, 0) := by decide
/-- FV5: the terminator as the 16th byte is a terminator -/
theorem test_step_terminator_last :
    outcome (step (reading .recv ([0x90, 0x50] ++ List.replicate 13 1) [.byte 0xFF])) = some (.reply, 0x00, .idle, 0) := by
  decide
/-- FV6: the 16th byte is no terminator -/
theorem test_step_oversized :
    outcome (step (reading .recv ([0x90, 0x50] ++ List.replicate 13 1) [.byte 0x0D, .byte 0xFF])) =
      some (.oversized, 0xFD, .idle, 0) := by decide
/-- FV2 and FV4 -/
theorem test_step_timeout : outcome (step (reading .recv [0x90] [.empty])) = some (.timeout, 0xFE, .idle, 0) := by decide
theorem test_step_transportErr : outcome (step (reading .recv [0x90, 0x50] [.error])) =
    some (.transportErr, 0xFF, .idle, 0) := by decide
/-- EV15 and EV17 -/
theorem test_step_short_write : outcome (step (writing 6 [3])) = some (.writeFail, 0xFF, .idle, 0) := by decide
theorem test_step_negative_write : outcome (step (writing 6 [-1])) = some (.writeFail, 0xFF, .idle, 0) := by decide
theorem test_step_complete_write : outcome (step (writing 6 [6])) = some (.none, 0x00, .rxw, 0) := by decide
theorem test_step_handler_return : outcome (step (handling 1)) = some (.none, 0x00, .rxw, 0) := by decide
theorem test_step_waits : nextOf (step State.reset) = some State.reset := by decide
theorem test_step_reset : (nextOf (step { reading .recv [0x90] [] with rst := { once := [true] } })).map (fun t => (t.phase, t.rlen)) =
    some (.idle, 0) := by decide
theorem test_step_illegal : nextOf (step { State.reset with cfg := { maxLen := 2 } }) = none := by decide

/-! ## Words of the opcode table -/

theorem test_table_words :
    [decodeTableWord 32 0x00500000, decodeTableWord 32 0x00400000, decodeTableWord 32 0x00077D02,
      decodeTableWord 32 0x00380000, decodeTableWord 32 0x90FF0000, decodeTableWord 32 0x00600000,
      decodeTableWord 32 0x88300000, decodeTableWord 32 0x88000000, decodeTableWord 32 0x00000000] =
    [some (.reply 0 0 [0, 0]), some (.ack 0 0), some (.pushIr 0 0 0), some (.pushNet 0), some (.undersized (some 0x90)),
      some (.error 0 0 0), some (.addrEnumReply 0), some (.broadcast [0, 0, 0]), some (.unknown 0 [0, 0, 0])] := by decide
theorem test_table_tx_words :
    [decodeTableWord 16 0x8100, decodeTableWord 16 0x8101, decodeTableWord 16 0x8109, decodeTableWord 16 0x8830,
      decodeTableWord 16 0x8120] =
    [some (.txGeneric 1 [0]), some (.command 1 []), some (.inquiry 1 .s4 []), some .addressSet, some (.cancel 1 0)] := by
  decide
theorem test_table_request_words :
    [1, 2, 3, 4, 5, 6, 7, 0].map (decodeTableWord 8) =
    [some .recv, some .wait, some (.send 0 []), some (.inq 0 .s4 []), some (.decode .s4), some .assign,
      some (.seth false false), some .nop] := by decide
theorem test_fetch_packet : outcome (step (State.reset.withFetchWord 32 0x90604100)) = some (.error, 0x41, .idle, 0) := by
  decide
theorem test_fetch_packet_sent : sent (step (State.reset.withFetchWord 16 0x8225)) =
    some ([0x82, 0x25, 0xFF], .send, .txw) := by decide
theorem test_fetch_request : (nextOf (step (State.reset.withFetchWord 8 1))).map (·.phase) = some .rxw := by decide

/-! ## The obligations' hypotheses are met

One theorem for each obligation with hypotheses, at boundary values of each clause. -/

/-- A payload of 14 bytes, the longest (R199). -/
def longest : List Item := List.replicate 14 (.b 1)

/-- One byte more. -/
def overlong : List Item := List.replicate 15 (.b 1)

/-- A state with a request presented. -/
def asked (r : ReqSignals) : State := { State.reset with requests := { once := [r] } }

theorem reading_inv (m : Mode) (bytes : List Byte) (rest : List RxAnswer) (h : bytes.length < 16)
    (hn : noTerm bytes = true) : Inv (reading m bytes rest) where
  legal := (by decide : (3 : Nat) ≤ 16)
  buffers := by constructor <;> simp [reading, State.reset, Params.default] <;> omega
  kind_not_push := ⟨nofun, nofun⟩
  reading := by
    intro _
    exact ⟨h, by simpa [reading, rxPacket, List.take_append] using hn⟩
  read_issued := by intro _; rfl
  write_issued := by intro h; cases h
  push_issued := by intro h; cases h
  ack_only_recv := by intro h; cases h
  enum_counted := by intro h; cases h
  failure_coded := by intro h; cases h

theorem asked_inv (r : ReqSignals) : Inv (asked r) where
  legal := (by decide : (3 : Nat) ≤ 16)
  buffers := by constructor <;> simp [asked, State.reset, Params.default]
  kind_not_push := ⟨nofun, nofun⟩
  reading := by intro h; cases h
  read_issued := by intro h; cases h
  write_issued := by intro h; cases h
  push_issued := by intro h; cases h
  ack_only_recv := by intro _ h; cases h
  enum_counted := by intro h; cases h
  failure_coded := by intro h; cases h

theorem test_wit_RecvAndWaitStartFraming : State.reset.phase = .idle := by decide
theorem test_wit_SendWritesTheEncodedPacket :
    State.reset.phase = .idle ∧ State.reset.tbuf.length = State.reset.cfg.maxLen ∧
    (expand longest).length + 2 ≤ State.reset.cfg.maxLen := by decide
theorem test_wit_InqLatchesTheShapeAndWrites :
    State.reset.phase = .idle ∧ State.reset.tbuf.length = State.reset.cfg.maxLen ∧
    (expand ([] : List Item)).length + 2 ≤ State.reset.cfg.maxLen := by decide
theorem test_wit_AssignWritesTheEnumerationPacket :
    State.reset.phase = .idle ∧ State.reset.tbuf.length = State.reset.cfg.maxLen ∧
    State.reset.cfg.addrsetPayload.length + 2 ≤ State.reset.cfg.maxLen := by decide
theorem test_wit_TransmittedFormatsRunTheirOperation :
    State.reset.phase = .idle ∧ State.reset.tbuf.length = State.reset.cfg.maxLen ∧
    (List.replicate 14 (1 : Byte)).length + 2 ≤ State.reset.cfg.maxLen ∧
    (List.replicate 13 (1 : Byte)).length + 3 ≤ State.reset.cfg.maxLen ∧
    State.reset.cfg.addrsetPayload.length + 2 ≤ State.reset.cfg.maxLen ∧ 3 ≤ State.reset.cfg.maxLen := by decide
theorem test_wit_AbbreviationsRunTheirExpansion :
    State.reset.phase = .idle ∧ State.reset.tbuf.length = State.reset.cfg.maxLen ∧
    (expand (List.replicate 13 (.b 1))).length + 3 ≤ State.reset.cfg.maxLen ∧ 4 ≤ State.reset.cfg.maxLen := by decide
theorem test_wit_OverlongPayloadIsRefused :
    State.reset.phase = .idle ∧ State.reset.cfg.maxLen < (expand overlong).length + 2 ∧
    State.reset.cfg.maxLen < (expand longest).length + 3 ∧
    State.reset.cfg.maxLen < (List.replicate 15 (1 : Byte)).length + 2 ∧
    State.reset.cfg.maxLen < (List.replicate 14 (1 : Byte)).length + 3 := by decide
theorem test_wit_OverlongPayloadIsRefused_enumeration :
    ({ State.reset with cfg := tight } : State).phase = .idle ∧
    ({ State.reset with cfg := tight } : State).cfg.maxLen < tight.addrsetPayload.length + 2 ∧
    ({ State.reset with cfg := tight } : State).cfg.maxLen < 4 ∧
    ({ State.reset with cfg := { maxLen := 2 } } : State).cfg.maxLen < 3 := by decide
theorem test_wit_DecodeAnswersAtOnce :
    (replied [0x90, 0x50, 0x0A, 0xFF]).phase = .idle ∧ (replied [0x90, 0x50, 0x0A, 0xFF]).kind = .reply ∧
    (replied [0x90, 0x50, 0x0A, 0xFF]).rlen = requiredLength .s4 ∧
    ((replied [0x90, 0x50, 0xFF]).kind ≠ .reply ∨ (replied [0x90, 0x50, 0xFF]).rlen ≠ requiredLength .s4) ∧
    (State.reset.kind ≠ .reply ∨ State.reset.rlen ≠ requiredLength .s4) := by decide
theorem test_wit_SethWritesTheEnablesOnly : State.reset.phase = .idle := by decide
theorem test_wit_EventsOutOfPhaseChangeNothing :
    busy (writing 2 []) = true ∧ (writing 2 []).phase ≠ .rxw ∧ (reading .wait [] []).phase ≠ .txw ∧
    (writing 2 []).phase ≠ .hdw := by decide
theorem test_wit_RowsWaitForTheirPhase :
    (writing 2 []).phase ≠ .idle ∧ (requestOf (.txGeneric 1 [])).isSome = true ∧
    (∀ n, Instr.txGeneric 1 [] ≠ .nibbleByte n) ∧ (∀ sh, Instr.txGeneric 1 [] ≠ shapeInstr sh) ∧
    (writing 2 []).phase ≠ .rxw := by
  refine ⟨by decide, by decide, by decide, ?_, by decide⟩
  intro sh; cases sh <;> decide
theorem test_wit_CodeZeroChangesNothing : ({ op := 0 } : ReqSignals).op = 0#3 := by decide
theorem test_wit_ShapesDecodeRepliesOfTheirLength :
    (replied [0x90, 0x50, 0x0A, 0xFF]).kind = .reply ∧ (replied [0x90, 0x50, 0x0A, 0xFF]).rlen = 4 ∧
    (replied [0x90, 0x50, 1, 2, 3, 4, 0xFF]).kind = .reply ∧ (replied [0x90, 0x50, 1, 2, 3, 4, 0xFF]).rlen = 7 ∧
    (replied [0x90, 0x50, 1, 2, 3, 4, 5, 6, 7, 8, 0xFF]).kind = .reply ∧
    (replied [0x90, 0x50, 1, 2, 3, 4, 5, 6, 7, 8, 0xFF]).rlen = 11 := by decide
theorem test_wit_OtherPacketsFailTheShapes :
    (State.reset.kind ≠ .reply ∨ State.reset.rlen ≠ 4) ∧
    ((replied [0x90, 0x50, 1, 2, 3, 0xFF]).kind ≠ .reply ∨ (replied [0x90, 0x50, 1, 2, 3, 0xFF]).rlen ≠ 7) ∧
    ((replied [0x90, 0x50, 1, 2, 3, 4, 5, 6, 7, 8, 9, 0xFF]).kind ≠ .reply ∨
      (replied [0x90, 0x50, 1, 2, 3, 4, 5, 6, 7, 8, 9, 0xFF]).rlen ≠ 11) := by decide
theorem test_wit_DecoderIsTheDecodeFunction :
    (replied [0x90, 0x50, 0x0A, 0xFF]).kind = .reply ∧
    (replied [0x90, 0x50, 0x0A, 0xFF]).rlen ≤ (replied [0x90, 0x50, 0x0A, 0xFF]).rbuf.length ∧
    decodeFn .s4 (rxPacket (replied [0x90, 0x50, 0x0A, 0xFF])) = some (10, none) ∧
    decodeFn .s16 (rxPacket (replied [0x90, 0x50, 0x0A, 0xFF])) = none := by decide
theorem test_wit_NumbersSurviveTheWire :
    (replied ([0x90, 0x50] ++ expand [.n4 0xA] ++ [0xFF])).rlen = 4 ∧
    (replied ([0x90, 0x50] ++ expand [.n4 0xA] ++ [0xFF])).rbuf =
      0x90 :: (5#4 ++ 0#4 : Byte) :: (expand [.n4 0xA] ++ 0xFF :: List.replicate 12 0) ∧
    (replied ([0x90, 0x50] ++ expand [.n16 0x0ABC] ++ [0xFF])).kind = .reply ∧
    (replied ([0x90, 0x50] ++ expand [.n16 0x0ABC] ++ [0xFF])).rlen = 7 ∧
    (replied ([0x90, 0x50] ++ expand [.n16 0x0ABC] ++ [0xFF])).rbuf =
      0x90 :: (5#4 ++ 0#4 : Byte) :: (expand [.n16 0x0ABC] ++ 0xFF :: List.replicate 9 0) ∧
    (replied ([0x90, 0x50] ++ expand [.n32 0xDEADBEEF] ++ [0xFF])).rlen = 11 ∧
    (replied ([0x90, 0x50] ++ expand [.n32 0xDEADBEEF] ++ [0xFF])).rbuf =
      0x90 :: (5#4 ++ 0#4 : Byte) :: (expand [.n32 0xDEADBEEF] ++ 0xFF :: List.replicate 5 0) ∧
    (replied ([0x90, 0x50] ++ expand [.n16 0x1234, .n16 0xABCD] ++ [0xFF])).rbuf =
      0x90 :: (5#4 ++ 0#4 : Byte) :: (expand [.n16 0x1234, .n16 0xABCD] ++ 0xFF :: List.replicate 5 0) := by decide
theorem test_wit_NibbleByteJoinsThePacket :
    (writing 15 []).tlen < (writing 15 []).cfg.maxLen ∧ (writing 16 []).cfg.maxLen ≤ (writing 16 []).tlen := by decide
theorem test_wit_NumericItemIsItsNibbleBytes :
    (writing 12 []).tbuf.length = (writing 12 []).cfg.maxLen ∧ (writing 12 []).tlen + 4 ≤ (writing 12 []).cfg.maxLen ∧
    (writing 15 []).tlen + 1 ≤ (writing 15 []).cfg.maxLen ∧ (writing 8 []).tlen + 8 ≤ (writing 8 []).cfg.maxLen := by
  decide
theorem test_wit_FailuresEndEveryOperation : (reading .inq [] []).phase = .rxw := by decide
theorem test_wit_RepliesEndUncheckedOperations :
    ∀ m ∈ [Mode.recv, .wait, .send],
      (reading m [] []).mode = .recv ∨ (reading m [] []).mode = .wait ∨ (reading m [] []).mode = .send := by decide
theorem test_wit_AcknowledgeEndsRecvOnly : (reading .recv [] []).mode = .recv ∧ (reading .assign [] []).mode ≠ .recv := by
  decide
theorem test_wit_InquiryDecodesItsReply :
    (reading .inq [0x90, 0x50, 0x0A, 0xFF] []).mode = .inq ∧
    (reading .inq [0x90, 0x50, 0x0A, 0xFF] []).rlen = requiredLength (reading .inq [0x90, 0x50, 0x0A, 0xFF] []).shapeR ∧
    (reading .inq [0x90, 0x50, 0xFF] []).rlen ≠ requiredLength (reading .inq [0x90, 0x50, 0xFF] []).shapeR ∧
    2 ≤ (2 : Byte).toNat ∧ (8 : Byte).toNat ≤ 8 := by decide
theorem test_wit_EnumerationNeedsACount :
    (reading .assign [] []).mode = .assign ∧ 2 ≤ (2 : Byte).toNat ∧ (2 : Byte).toNat ≤ 8 ∧ 2 ≤ (8 : Byte).toNat ∧
    (8 : Byte).toNat ≤ 8 := by decide
theorem test_wit_EnumerationReplyRecordsTheCount :
    2 ≤ (2 : Byte).toNat ∧ (2 : Byte).toNat ≤ 8 ∧ 2 ≤ (8 : Byte).toNat ∧ (8 : Byte).toNat ≤ 8 ∧
    ((1 : Byte).toNat < 2 ∨ 8 < (1 : Byte).toNat) ∧ ((9 : Byte).toNat < 2 ∨ 8 < (9 : Byte).toNat) ∧
    classify [0x88, 0x30, 0x04, 0xFF] = .addrEnumReply 4 := by decide
theorem test_wit_PushPacketsAreDeliveredOrDropped :
    ({ reading .wait [] [] with irEn := true } : State).irEn = true ∧ (reading .wait [] []).irEn = false ∧
    ({ reading .wait [] [] with netEn := true } : State).netEn = true ∧ (reading .wait [] []).netEn = false := by decide
theorem test_wit_BytesAreStoredAndCounted :
    (reading .recv (List.replicate 15 0) []).phase = .rxw ∧
    (reading .recv (List.replicate 15 0) []).rlen < (reading .recv (List.replicate 15 0) []).cfg.maxLen ∧
    (reading .recv (List.replicate 15 0) []).rbuf.length = (reading .recv (List.replicate 15 0) []).cfg.maxLen ∧
    (0 : Byte) ≠ 0xFF ∧ (reading .recv (List.replicate 15 0) []).rlen + 1 = (reading .recv (List.replicate 15 0) []).cfg.maxLen ∧
    (reading .recv (List.replicate 14 0) []).rlen + 1 < (reading .recv (List.replicate 14 0) []).cfg.maxLen := by decide
theorem test_wit_ShortWriteEndsTheOperation :
    (writing 6 []).phase = .txw ∧ (5 : Int) < ((writing 6 []).tlen : Int) ∧ (-1 : Int) < ((writing 6 []).tlen : Int) := by
  decide
theorem test_wit_CompleteWriteStartsTheHandshake :
    (writing 6 []).phase = .txw ∧ ((writing 6 []).tlen : Int) ≤ 6 := by decide
theorem test_wit_HandlerReturnFramesTheNextPacket :
    (handling 0).phase = .hdw ∧ (writing 2 []).phase ≠ .hdw ∧ (handling 0).cfg.legal ∧ (handling 0).rst = .silent ∧
    (handling 0).handlerReturns = .silent := by decide
theorem test_wit_StepRunsTheDecodedInstruction :
    State.reset.cfg.legal ∧ resetSampled State.reset = false ∧
    (asked { op := 1 }).phase = .idle ∧ (asked { op := 1 }).requests.head? = some { op := 1 } ∧
    (reading .recv [0x90, 0x50] [.byte 0xFF]).phase = .rxw ∧ BuffersWf (reading .recv [0x90, 0x50] [.byte 0xFF]) ∧
    (reading .recv [0x90, 0x50] [.byte 0xFF]).rxStream.head? = some (.byte 0xFF) ∧
    decode (reading .recv [0x90, 0x50] [.byte 0xFF]).cfg
      (.rx ((reading .recv [0x90, 0x50] [.byte 0xFF]).rbuf.take 2 ++ [0xFF])) = .ok (.reply 0x90 0 []) ∧
    (reading .recv (List.replicate 15 0) [.byte 0]).rlen + 1 = (reading .recv (List.replicate 15 0) [.byte 0]).cfg.maxLen ∧
    (reading .recv [] [.empty]).rxStream.head? = some .empty ∧ (reading .recv [] [.error]).rxStream.head? = some .error := by
  refine ⟨by decide, by decide, by decide, by decide, by decide, ?_, by decide, by decide, by decide, by decide, by decide⟩
  exact (reading_inv _ _ _ (by decide) (by decide)).buffers
theorem test_wit_RowsRunThroughTheirRequests :
    (requestOf (.cancel 1 2)).isSome = true ∧ (∀ n, Instr.cancel 1 2 ≠ .nibbleByte n) ∧
    (∀ sh, Instr.cancel 1 2 ≠ shapeInstr sh) ∧ State.reset.phase = .idle := by
  refine ⟨by decide, by decide, ?_, by decide⟩
  intro sh; cases sh <;> decide
theorem test_wit_DecodeInvertsEncode :
    Params.default.legal ∧ wellFormed Params.default (.reply 0x90 0xF (List.replicate 13 0)) = true ∧
    wellFormed Params.default (.broadcast [0x30]) = true ∧ wellFormed Params.default (.unknown 0x90 [0x41, 0x00]) = true ∧
    tight.legal ∧ wellFormed tight (.ack 0x90 1) = true := by decide
theorem test_wit_EncodeInvertsClassification :
    decode Params.default (.rx ([0x90, 0x41] ++ List.replicate 13 0 ++ [0xFF])) =
      .ok (.unknown 0x90 (0x41 :: List.replicate 13 0)) := by decide
theorem test_wit_EncodeInvertsTransmittedFormats :
    decode Params.default (.tx 1 [0x81, 0x09, 0x04, 0xFF]) = .ok (.inquiry 1 .s16 [0x04]) := by decide
theorem test_wit_ClassificationMapAgreesWithTheRules :
    decode Params.default (.rx [0x88, 0x60, 0x02, 0xFF]) = .ok (.error 0x88 0 0x02) := by decide
theorem test_wit_StepKeepsTheInvariant :
    Inv (reading .wait [0x90] [.byte 0x50]) ∧ ∃ t, step (reading .wait [0x90] [.byte 0x50]) = .next t :=
  ⟨reading_inv _ _ _ (by decide) (by decide), _, rfl⟩
theorem test_wit_StepsStopOnlyOnOverlongRequests : Inv (asked { op := 3, items := overlong }) := asked_inv _
theorem test_wit_StepsComputeTheFramingFunction :
    (reading .recv [] [.byte 0x90, .byte 0xFF, .empty]).cfg.legal ∧
    BuffersWf (reading .recv [] [.byte 0x90, .byte 0xFF, .empty]) ∧
    (reading .recv [] [.byte 0x90, .byte 0xFF, .empty]).phase = .rxw ∧
    (reading .recv [] [.byte 0x90, .byte 0xFF, .empty]).rlen = 0 ∧
    (reading .recv [] [.byte 0x90, .byte 0xFF, .empty]).rst = .silent ∧
    frameFn 16 [] { once := [.byte 0x90, .byte 0xFF, .empty] } = some (.packet, [0x90, 0xFF], { once := [.empty] }) :=
  ⟨by decide, (reading_inv _ _ _ (by decide) (by decide)).buffers, by decide, by decide, by decide, by decide⟩
/-- FV10's stream, in WAIT; and an Acknowledge in RECV -/
theorem test_wit_StepsComputeTheHandshakeFunction :
    let s : State := { reading .wait [] ([0x90, 0x41, 0xFF, 0xA0, 0x38, 0xFF, 0x90, 0x51, 0xFF].map .byte) with
      netEn := true, handlerReturns := { forever := [()] } }
    Inv s ∧ s.phase = .rxw ∧ s.rlen = 0 ∧ s.rst = .silent ∧
    handshakeFn s.cfg s.mode s.irEn s.netEn 3 s.rxStream [] =
      some ⟨.reply, 0x00, [0x90, 0x51, 0xFF], none, [.netEvent 2], .silent⟩ ∧ s.handlerReturns.enough 1 := by
  refine ⟨?_, by decide, by decide, by decide, by decide, .inr (by decide)⟩
  have h := reading_inv .wait [] ([0x90, 0x41, 0xFF, 0xA0, 0x38, 0xFF, 0x90, 0x51, 0xFF].map .byte) (by decide) (by decide)
  exact ⟨h.1, ⟨h.2.1, h.2.2, h.2.3, h.2.4⟩, h.3, h.4, h.5, h.6, h.7, h.8, h.9, h.10⟩
theorem test_wit_StepsComputeTheHandshakeFunction_recv :
    let s : State := reading .recv [] ([0x90, 0x41, 0xFF].map .byte)
    Inv s ∧ s.phase = .rxw ∧ s.rlen = 0 ∧ s.rst = .silent ∧
    handshakeFn s.cfg s.mode s.irEn s.netEn 1 s.rxStream [] = some ⟨.ack, 0xD0, [0x90, 0x41, 0xFF], none, [], .silent⟩ ∧
    s.handlerReturns.enough 0 :=
  ⟨reading_inv _ _ _ (by decide) (by decide), rfl, rfl, rfl, by decide, .inl (by decide)⟩
theorem test_wit_AcknowledgesNeverEndTheHandshake :
    let acks : List (Byte × Nibble) := [(0x90, 1), (0xA0, 2)]
    let s : State := reading .wait [] ([0x90, 0x41, 0xFF, 0xA0, 0x42, 0xFF].map .byte)
    s.cfg.legal ∧ BuffersWf s ∧ s.phase = .rxw ∧ s.rlen = 0 ∧ s.rst = .silent ∧ s.mode ≠ .recv ∧
    (∀ a ∈ acks, a.1 ≠ 0xFF) ∧
    s.rxStream.once = (acks.flatMap fun a => [.byte a.1, .byte (4#4 ++ a.2 : Byte), .byte 0xFF]) ++ [] :=
  ⟨by decide, (reading_inv _ _ _ (by decide) (by decide)).buffers, rfl, rfl, rfl, nofun, by simp, rfl⟩
theorem test_wit_OperationsHangWithoutATerminalAnswer_waits :
    (∀ m, (reading m [] []).phase = .rxw ∧ (reading m [] []).rxStream = .silent) ∧
    (writing 2 []).phase = .txw ∧ (writing 2 []).txAnswers = .silent ∧
    (handling 0).phase = .hdw ∧ (handling 0).handlerReturns = .silent ∧ (handling 0).rst = .silent :=
  ⟨fun _ => ⟨rfl, rfl⟩, rfl, rfl, rfl, rfl, rfl⟩
/-- HV13's Acknowledge, and a topology change, without end, in WAIT with a handler registered -/
theorem test_wit_OperationsHangWithoutATerminalAnswer_endless :
    let packets : List (List Byte) := [[0x90, 0x41, 0xFF], [0xA0, 0x38, 0xFF]]
    let s : State := { reading .wait [] [] with
      rxStream := { forever := packets.flatten.map .byte }, netEn := true, handlerReturns := { forever := [()] } }
    s.cfg.legal ∧ BuffersWf s ∧ s.phase = .rxw ∧ s.rlen = 0 ∧ s.rst = .silent ∧ packets ≠ [] ∧
    (∀ p ∈ packets, Absorbed s.mode p ∧ p.length ≤ s.cfg.maxLen) ∧ s.handlerReturns.forever ≠ [] := by
  refine ⟨by decide, ⟨rfl, rfl, by decide, by decide⟩, rfl, rfl, rfl, nofun, ?_, nofun⟩
  intro p hp
  rcases List.mem_pair.mp hp with rfl | rfl
  · exact ⟨.inl ⟨nofun, 0x90, 1, by decide, by decide⟩, by decide⟩
  · exact ⟨.inr (.inl ⟨0xA0, by decide, rfl⟩), by decide⟩
/-- EV18 -/
theorem test_wit_SendExchangeEndsAsItsHandshake :
    let r : ReqSignals := { op := 3#3, addr := 1, items := [.b 0x01, .b 0x04, .b 0x00, .b 0x02] }
    let s : State := { asked r with
      txAnswers := { once := [6] }, rxStream := { once := [0x90, 0x41, 0xFF, 0x90, 0x51, 0xFF].map .byte } }
    Inv s ∧ s.phase = .idle ∧ s.rst = .silent ∧ s.requests.head? = some r ∧ r.op = 3#3 ∧ s.txAnswers.head? = some 6 ∧
    (expand r.items).length + 2 ≤ s.cfg.maxLen ∧ ((expand r.items).length : Int) + 2 ≤ 6 ∧
    handshakeFn s.cfg .send s.irEn s.netEn 2 s.rxStream [] =
      some ⟨.reply, 0x00, [0x90, 0x51, 0xFF], none, [], .silent⟩ ∧ s.handlerReturns.enough 0 := by
  refine ⟨?_, by decide, by decide, by decide, by decide, by decide, by decide, by decide, by decide, .inl (by decide)⟩
  have h := asked_inv { op := 3#3, addr := 1, items := [.b 0x01, .b 0x04, .b 0x00, .b 0x02] }
  exact ⟨h.1, ⟨h.2.1, h.2.2, h.2.3, h.2.4⟩, h.3, h.4, h.5, h.6, h.7, h.8, h.9, h.10⟩
theorem test_wit_InqExchangeEndsWithItsPostCheck :
    let r : ReqSignals := { op := 4#3, addr := 1, shape := 0, items := [.b 0x09, .b 0x04, .b 0x00] }
    let s : State := { asked r with
      txAnswers := { once := [5] }, rxStream := { once := [0x90, 0x50, 0x02, 0xFF].map .byte } }
    Inv s ∧ s.phase = .idle ∧ s.rst = .silent ∧ s.requests.head? = some r ∧ r.op = 4#3 ∧ s.txAnswers.head? = some 5 ∧
    (expand r.items).length + 2 ≤ s.cfg.maxLen ∧ ((expand r.items).length : Int) + 2 ≤ 5 ∧
    handshakeFn s.cfg .inq s.irEn s.netEn 1 s.rxStream [] =
      some ⟨.reply, 0x00, [0x90, 0x50, 0x02, 0xFF], none, [], .silent⟩ ∧ s.handlerReturns.enough 0 ∧
    reportedValues .inq .s4 ⟨.reply, 0x00, [0x90, 0x50, 0x02, 0xFF], none, [], .silent⟩ = some (2, none) := by
  refine ⟨?_, by decide, by decide, by decide, by decide, by decide, by decide, by decide, by decide, .inl (by decide),
    by decide⟩
  have h := asked_inv { op := 4#3, addr := 1, shape := 0, items := [.b 0x09, .b 0x04, .b 0x00] }
  exact ⟨h.1, ⟨h.2.1, h.2.2, h.2.3, h.2.4⟩, h.3, h.4, h.5, h.6, h.7, h.8, h.9, h.10⟩
theorem test_wit_AssignExchangeEndsWithItsPostCheck :
    let s : State := { asked { op := 6#3 } with
      txAnswers := { once := [4] }, rxStream := { once := [0x88, 0x30, 0x04, 0xFF].map .byte } }
    Inv s ∧ s.phase = .idle ∧ s.rst = .silent ∧ s.requests.head? = some { op := 6#3 } ∧ s.txAnswers.head? = some 4 ∧
    s.cfg.addrsetPayload.length + 2 ≤ s.cfg.maxLen ∧ (s.cfg.addrsetPayload.length : Int) + 2 ≤ 4 ∧
    handshakeFn s.cfg .assign s.irEn s.netEn 1 s.rxStream [] =
      some ⟨.addrEnum, 0x00, [0x88, 0x30, 0x04, 0xFF], some 3, [], .silent⟩ ∧ s.handlerReturns.enough 0 := by
  refine ⟨?_, by decide, by decide, by decide, by decide, by decide, by decide, by decide, .inl (by decide)⟩
  have h := asked_inv { op := 6#3 }
  exact ⟨h.1, ⟨h.2.1, h.2.2, h.2.3, h.2.4⟩, h.3, h.4, h.5, h.6, h.7, h.8, h.9, h.10⟩
/-- R233: a Reply is no answer to an enumeration, and an Error stays what it is -/
theorem test_assign_reports :
    reportedResult .assign .s4 ⟨.reply, 0x00, [0x90, 0x51, 0xFF], none, [], .silent⟩ = 0xFA ∧
    reportedResult .assign .s4 ⟨.error, 0x02, [0x90, 0x60, 0x02, 0xFF], none, [], .silent⟩ = 0x02 := by decide
theorem test_wit_CameraCountHasOneWriter :
    Inv (reading .assign [0x88, 0x30, 0x08] [.byte 0xFF]) ∧
    ∃ t, step (reading .assign [0x88, 0x30, 0x08] [.byte 0xFF]) = .next t ∧
      t.camcnt ≠ (reading .assign [0x88, 0x30, 0x08] [.byte 0xFF]).camcnt :=
  ⟨reading_inv _ _ _ (by decide) (by decide), _, rfl, by decide⟩
theorem test_wit_HandlersAreRegisteredBySethOnly :
    ∃ t, step (asked { op := 7, irEn := true }) = .next t ∧
      (t.irEn ≠ (asked { op := 7, irEn := true }).irEn ∨ t.netEn ≠ (asked { op := 7, irEn := true }).netEn) :=
  ⟨_, rfl, by decide⟩
theorem test_wit_StreamIsReadOneAnswerAtATime :
    ∃ t, step (reading .wait [] [.byte 0x90, .byte 0x50]) = .next t ∧ t.rxStream.head? = some (.byte 0x50) := ⟨_, rfl, by decide⟩
theorem test_wit_ReceiveBufferIsWrittenByFramingOnly :
    ∃ t, step (reading .wait [0x90] [.byte 0x50]) = .next t ∧ t.rbuf ≠ (reading .wait [0x90] [.byte 0x50]).rbuf :=
  ⟨_, rfl, by decide⟩
theorem test_wit_TransmitBufferIsWrittenByTheEncoderOnly :
    ∃ t, step (asked { op := 6 }) = .next t ∧ t.tbuf ≠ (asked { op := 6 }).tbuf := ⟨_, rfl, by decide⟩
theorem test_wit_DecodedValuesAreWrittenByTheDecoderOnly :
    ∃ t, step { replied [0x90, 0x50, 0x0A, 0xFF] with requests := { once := [{ op := 5 }] } } = .next t ∧
      (t.val0 ≠ (replied [0x90, 0x50, 0x0A, 0xFF]).val0 ∨ t.val1 ≠ (replied [0x90, 0x50, 0x0A, 0xFF]).val1) :=
  ⟨_, rfl, by decide⟩
theorem test_wit_StepsEmitAtMostOneEvent : ∃ t, step (handling 1) = .next t ∧ t.outputs ≠ (handling 1).outputs :=
  ⟨_, rfl, by decide⟩
theorem test_wit_OperationsEndWithDone :
    ∃ t, step (writing 6 [3]) = .next t ∧ (writing 6 [3]).phase ≠ .idle ∧ t.phase = .idle ∧
      resetSampled (writing 6 [3]) = false := ⟨_, rfl, by decide, by decide, by decide⟩
theorem test_wit_AssignSuccessMeansACount :
    Inv (reading .assign [0x88, 0x30, 0x02] [.byte 0xFF]) ∧
    ∃ t, step (reading .assign [0x88, 0x30, 0x02] [.byte 0xFF]) = .next t ∧
      (reading .assign [0x88, 0x30, 0x02] [.byte 0xFF]).phase ≠ .idle ∧ t.phase = .idle ∧
      resetSampled (reading .assign [0x88, 0x30, 0x02] [.byte 0xFF]) = false ∧
      (reading .assign [0x88, 0x30, 0x02] [.byte 0xFF]).mode = .assign ∧ success t.kind t.result = true :=
  ⟨reading_inv _ _ _ (by decide) (by decide), _, rfl, by decide, by decide, by decide, by decide, by decide⟩
theorem test_wit_InqSuccessMeansDecodedValues :
    ∃ t, step (reading .inq [0x90, 0x50, 0x0A] [.byte 0xFF]) = .next t ∧
      (reading .inq [0x90, 0x50, 0x0A] [.byte 0xFF]).phase ≠ .idle ∧ t.phase = .idle ∧
      resetSampled (reading .inq [0x90, 0x50, 0x0A] [.byte 0xFF]) = false ∧
      (reading .inq [0x90, 0x50, 0x0A] [.byte 0xFF]).mode = .inq ∧ success t.kind t.result = true :=
  ⟨_, rfl, by decide, by decide, by decide, by decide, by decide⟩
theorem test_wit_StatusPortShowsThePacket :
    2 < (replied [0x90, 0x50, 0xFF]).rlen ∧
    (replied [0x90, 0x50, 0xFF]).rlen ≤ (replied [0x90, 0x50, 0xFF]).rbuf.length ∧
    1 < (writing 2 []).tlen ∧ (writing 2 []).tlen ≤ (writing 2 []).tbuf.length ∧
    kindsInOrder[1]? = some (replied []).kind ∧ kindsInOrder[13]? = some .writeFail := by decide
theorem test_wit_ReceivePortCodesAreTheAnswers :
    rxAnswerOf 0#2 0x90 = some (.byte 0x90) ∧ rxAnswerOf 1#2 0 = some .empty ∧ rxAnswerOf 2#2 0 = some .error ∧
    (writing 2 []).phase ≠ .rxw ∧ (reading .inq [] []).phase = .rxw ∧ (-1 : Int) < 0 := by decide

end Sys2Proof.Tests
end

section
/-! The state and the ports (spec/10_state.md): the status port's codes and packets, what an answer of the receive port
leads to in each phase, and the statements O31, O56 and O60. -/

namespace Sys2Proof.Proofs

open Sys2Proof.Config Sys2Proof.Machine

/-! ## The status port (R24, R25, R27, R36, R37) -/

theorem busy_iff (s : State) : busy s = true ↔ s.phase ≠ .idle := by simp [busy]

/-- The code of a kind is its place in R27's list. -/
theorem kindsInOrder_kindCode (k : Kind) : kindsInOrder[(kindCode k).toNat]? = some k := by cases k <;> rfl

theorem kindsInOrder_nodup : kindsInOrder.Nodup := by decide

theorem mem_kindsInOrder (k : Kind) : k ∈ kindsInOrder := List.mem_of_getElem? (kindsInOrder_kindCode k)

/-- No other place of R27's list holds the kind. -/
theorem kindCode_of_kindsInOrder {i : Nat} {k : Kind} (h : kindsInOrder[i]? = some k) : (kindCode k).toNat = i := by
  have hlt : (kindCode k).toNat < kindsInOrder.length := (List.getElem?_eq_some_iff.mp (kindsInOrder_kindCode k)).1
  exact (List.getElem?_inj hlt kindsInOrder_nodup).mp ((kindsInOrder_kindCode k).trans h.symm)

/-- Below a length that lies within the buffer, the first bytes of the buffer are the buffer's bytes (R20, R22, R60). -/
theorem getElem?_take_eq_byteAt {buf : List Byte} {i n : Nat} (hi : i < n) (hn : n ≤ buf.length) :
    (buf.take n)[i]? = some (byteAt buf i) := by
  have hb : i < buf.length := by omega
  simp [byteAt, hi, hb]

/-- Below `rlen` the port shows no stale byte (R34, R37). -/
theorem statusRbuf_of_lt {s : State} {i : Nat} (hi : i < s.rlen) : statusRbuf s i = byteAt s.rbuf i := by
  simp [statusRbuf, hi]

/-- Settles O56: the single values are the registers by definition; the codes of the kinds and the bytes of the two
packets are the lemmas above. -/
theorem statusPortShowsThePacket : Obligations.StatusPortShowsThePacket := by
  refine ⟨fun s => ?_, rfl, rfl⟩
  refine ⟨busy_iff s, rfl, ?kindCode, mem_kindsInOrder s.kind, rfl, rfl, rfl, rfl, rfl, rfl, rfl, rfl, ?received,
    ?transmitted⟩
  case kindCode =>
    rintro i k hik rfl
    exact kindCode_of_kindsInOrder hik
  case received =>
    intro i hi hn
    rw [statusRbuf_of_lt hi]
    exact getElem?_take_eq_byteAt hi hn
  case transmitted => exact fun i hi hn => getElem?_take_eq_byteAt hi hn

/-! ## The receive port (R38, R136, R137) -/

/-- Outside RXW no answer of the transport is accepted (R38, R282). -/
theorem onEvent_rxRsp_unread (a : RxAnswer) {s : State} (h : s.phase ≠ .rxw) : onEvent (.rxRsp a) s = .next s := by
  cases a with
  | byte b => exact onEvent_byte_unread b s h
  | empty => exact whenReading_other s _ h
  | error => exact whenReading_other s _ h

theorem onEvent_empty_reading {s : State} (h : s.phase = .rxw) :
    onEvent (.rxRsp .empty) s = .next (terminal .timeout codeTimeout s) := whenReading_reading s _ h

theorem onEvent_error_reading {s : State} (h : s.phase = .rxw) :
    onEvent (.rxRsp .error) s = .next (terminal .transportErr s.cfg.codeTransportError s) := whenReading_reading s _ h

theorem finish_latch (k : Kind) (c : Byte) (s : State) : finish (latch k c s) = ended k c s := rfl

/-- A kind that even code 0x00 makes no success is none of the three success kinds (R43). -/
theorem kind_ne_of_not_success {k : Kind} (h : success k 0x00 = false) : k ≠ .reply ∧ k ≠ .addrEnum ∧ k ≠ .broadcast := by
  simpa [success, and_assoc] using h

/-- The post-checks replace no outcome of a kind that is never a success (R184, R233, R269). -/
theorem postCheck_latch_of_not_success {k : Kind} (hk : success k 0x00 = false) (c : Byte) (s : State) :
    postCheck (latch k c s) = latch k c s := by
  obtain ⟨hReply, hEnum, hBroadcast⟩ := kind_ne_of_not_success hk
  cases hm : s.mode with
  | recv | wait | send => simp [postCheck, hm]
  | inq => simp [postCheck, hm, postInq, inqUnexpected, hReply, hEnum, hBroadcast]
  | assign => simp [postCheck, hm, postAssign, assignUnexpected, hReply, hBroadcast]

/-- In every mode an outcome of such a kind ends the operation with that kind and its own code; only an Acknowledge is
absorbed (R139, R181, R269). -/
theorem terminal_of_not_success {k : Kind} (hk : success k 0x00 = false) (hAck : k ≠ .ack) (c : Byte) (s : State) :
    terminal k c s = ended k c s := by
  rcases terminal_cases k c s with ⟨-, h⟩ | ⟨-, rfl, -⟩ | ⟨-, -, h⟩
  · rw [h, finish_latch]
  · contradiction
  · rw [h, postCheck_latch_of_not_success hk, finish_latch]

/-- Empty, while a packet is read, ends the operation with TIMEOUT (R136). -/
theorem onEvent_empty_ends {s : State} (h : s.phase = .rxw) :
    onEvent (.rxRsp .empty) s = .next (ended .timeout 0xFE s) := by
  rw [onEvent_empty_reading h, terminal_of_not_success rfl (by decide), codeTimeout]

/-- Error, while a packet is read, ends the operation with TRANSPORT_ERR and the parameter's code (R7, R137). -/
theorem onEvent_error_ends {s : State} (h : s.phase = .rxw) :
    onEvent (.rxRsp .error) s = .next (ended .transportErr s.cfg.codeTransportError s) := by
  rw [onEvent_error_reading h, terminal_of_not_success rfl (by decide)]

/-! The codes of the port (R38). -/

theorem rxAnswerOf_zero (b : Byte) : rxAnswerOf 0#2 b = some (.byte b) := rfl

theorem rxAnswerOf_one (b : Byte) : rxAnswerOf 1#2 b = some .empty := rfl

theorem rxAnswerOf_two (b : Byte) : rxAnswerOf 2#2 b = some .error := rfl

/-- Code 3 carries no answer (log 30). -/
theorem rxAnswerOf_three (b : Byte) : rxAnswerOf 3#2 b = none := rfl

/-- A negative count is Error, whatever its value (R38). -/
theorem rxAnswerOfRead_negative {n : Int} (hn : n < 0) (b : Byte) : rxAnswerOfRead n b = some .error := by
  have h1 : n ≠ 1 := by omega
  have h0 : n ≠ 0 := by omega
  simp [rxAnswerOfRead, h1, h0, hn]

/-- Settles O60: each code by its equation; an answer outside RXW by `onEvent_rxRsp_unread`; in RXW the codes 1 and 2
are Empty and Error, which end the framing. -/
theorem receivePortCodesAreTheAnswers : Obligations.ReceivePortCodesAreTheAnswers := by
  constructor
  · intro b
    exact ⟨rxAnswerOf_zero b, rxAnswerOf_one b, rxAnswerOf_two b, rxAnswerOf_three b, rxAnswerOf_rxStatus_byte b,
      rxAnswerOf_rxStatus_empty b, rxAnswerOf_rxStatus_error b, rfl, rfl, fun n hn => rxAnswerOfRead_negative hn b⟩
  · intro s code b a ha
    refine ⟨onEvent_rxRsp_unread a, ?empty, ?error⟩
    case empty =>
      rintro hp rfl
      obtain rfl : .empty = a := Option.some.inj ((rxAnswerOf_one b).symm.trans ha)
      exact onEvent_empty_ends hp
    case error =>
      rintro hp rfl
      obtain rfl : .error = a := Option.some.inj ((rxAnswerOf_two b).symm.trans ha)
      exact onEvent_error_ends hp

/-! ## Reset (R42, R290, R291) -/

/-- No code makes the kind NONE a success (R43). -/
@[simp] theorem success_none (c : Byte) : success .none c = false := by simp [success]

/-- Settles O31: the event answers `resetBlock`, whose fields the lemmas of Laws/Ops.lean give one by one. -/
theorem resetGivesTheListedValues : Obligations.ResetGivesTheListedValues := by
  intro s
  exact ⟨resetBlock s, onEvent_reset s, resetBlock_phase s, resetBlock_camcnt s, resetBlock_irEn s, resetBlock_netEn s,
    resetBlock_kind s, resetBlock_result s, resetBlock_rlen s, resetBlock_tlen s, success_none _, resetBlock_cfg s,
    resetBlock_outputs s, resetBlock_rxStream s, resetBlock_txAnswers s, resetBlock_requests s,
    resetBlock_handlerReturns s, resetBlock_rbuf_length s, resetBlock_tbuf_length s⟩

end Sys2Proof.Proofs
end

section
/-! The memory (spec/20_memory.md): the digits of a payload number, the nibble bytes stored in the transmit buffer, and
the statement O18. -/

namespace Sys2Proof.Proofs

open Sys2Proof.Config Sys2Proof.Machine

/-! ## The digits of a number (R66, R97, R98, R200) -/

/-- The lowest `n` hexadecimal digits of a word, most significant first (R66). -/
def hexDigits {w : Nat} (n : Nat) (v : BitVec w) : List Nibble :=
  (List.range n).map fun k => v.extractLsb' (4 * (n - 1 - k)) 4

@[simp] theorem length_hexDigits {w : Nat} (n : Nat) (v : BitVec w) : (hexDigits n v).length = n := by simp [hexDigits]

/-- A nibble byte has the value of its digit: its high nibble is 0 (R97). -/
theorem toNat_joinNib_zero (d : Nibble) : (joinNib 0#4 d).toNat = d.toNat :=
  (BitVec.toNat_append (0#4) d).trans (by simp)

/-- The nibble bytes of a word's value are its digits, each below a zero high nibble. -/
theorem nibbleBytes_toNat {w : Nat} (n : Nat) (v : BitVec w) :
    nibbleBytes n v.toNat = (hexDigits n v).map (joinNib 0#4) := by
  rw [nibbleBytes, hexDigits, List.map_map]
  refine List.map_congr_left fun k _ => BitVec.eq_of_toNat_eq ?_
  have hdigit : (v.toNat >>> (4 * (n - 1 - k))) % 16 < 2 ^ 8 := by omega
  rw [Function.comp_apply, toNat_joinNib_zero, BitVec.extractLsb'_toNat, BitVec.toNat_ofNat, Nat.mod_eq_of_lt hdigit]

/-- One item's payload is the item's bytes (R98). -/
theorem expand_singleton (i : Item) : expand [i] = expandItem i := by simp [expand]

/-! ## Nibble bytes in the transmit buffer (R97, R194; log 10) -/

/-- While there is room, NIBBLE_BYTE is one store of the digit's byte. -/
theorem exec_nibbleByte_of_lt (n : Nibble) {s : State} (h : s.tlen < s.cfg.maxLen) :
    exec (.nibbleByte n) s = .next (putByte s (joinNib 0#4 n)) := if_pos h

/-- With room for all of them, the stores are the encoder's stores of the digits' bytes. -/
theorem storeNibbles_eq_foldl (ns : List Nibble) (s : State) (h : s.tlen + ns.length ≤ s.cfg.maxLen) :
    storeNibbles ns s = .next ((ns.map (joinNib 0#4)).foldl putByte s) := by
  induction ns generalizing s with
  | nil => rfl
  | cons n ns ih =>
    rw [List.length_cons] at h
    have hfirst : s.tlen < s.cfg.maxLen := by omega
    have hrest : (putByte s (joinNib 0#4 n)).tlen + ns.length ≤ (putByte s (joinNib 0#4 n)).cfg.maxLen := by
      rw [putByte_tlen, putByte_cfg]
      omega
    rw [storeNibbles, exec_nibbleByte_of_lt n hfirst]
    exact ih _ hrest

/-- In a whole transmit buffer with room for a word's digits, their stores place the word's nibble bytes from `tlen`
on and leave the rest as it was. -/
theorem storeNibbles_hexDigits {w n : Nat} (v : BitVec w) {s : State} (hbuf : s.tbuf.length = s.cfg.maxLen)
    (hroom : s.tlen + n ≤ s.cfg.maxLen) :
    storeNibbles (hexDigits n v) s = .next (appended (nibbleBytes n v.toNat) s) := by
  rw [storeNibbles_eq_foldl _ _ (by simpa using hroom), foldl_putByte _ _ (by simpa [hbuf] using hroom),
    nibbleBytes_toNat, appended]

/-- Settles O18: the item is its digits by `nibbleBytes_toNat`, and the stores of the digits are the item's bytes by
`storeNibbles_hexDigits`, for 1, 4 and 8 digits; the lists of the statement are `hexDigits` written out. -/
theorem numericItemIsItsNibbleBytes : Obligations.NumericItemIsItsNibbleBytes := by
  intro s n v w hbuf
  have hn : hexDigits 1 n = [n] := congrArg (fun d => [d]) BitVec.extractLsb'_eq_self
  simp only [expand_singleton, expandItem]
  refine ⟨?_, nibbleBytes_toNat 4 v, nibbleBytes_toNat 8 w, ?_, storeNibbles_hexDigits v hbuf,
    storeNibbles_hexDigits w hbuf⟩
  · rw [nibbleBytes_toNat, hn]
    rfl
  · rw [← hn]
    exact storeNibbles_hexDigits n hbuf

end Sys2Proof.Proofs
end

section
/-! The decoder's shapes (spec/44_decoder.md R210 to R214): a field is the number of its digits, a Reply of the shape's
length is decoded, and the statement O13. -/

namespace Sys2Proof.Proofs

open Sys2Proof.Config Sys2Proof.Machine

/-! ## A field is the number of its digits (R66, R212) -/

theorem loNib_toNat (b : Byte) : (loNib b).toNat = b.toNat % 16 := by simp [loNib]

theorem fieldAt_zero (buf : List Byte) (i : Nat) : fieldAt buf i 0 = 0 := rfl

/-- One more nibble byte shifts the digits before it up by one place and joins as the last digit. -/
theorem fieldAt_succ (buf : List Byte) (i n : Nat) :
    fieldAt buf i (n + 1) = fieldAt buf i n * 16 + (loNib (byteAt buf (i + n))).toNat := by
  have hshift : ∀ k ∈ List.range n, (loNib (byteAt buf (i + k))).toNat <<< (4 * (n + 1 - 1 - k)) =
      (loNib (byteAt buf (i + k))).toNat <<< (4 * (n - 1 - k)) * 16 := by
    intro k hk
    have hplace : 4 * (n + 1 - 1 - k) = 4 * (n - 1 - k) + 4 := by
      have := List.mem_range.mp hk
      omega
    rw [hplace, Nat.shiftLeft_add]
    exact Nat.shiftLeft_eq _ 4
  calc fieldAt buf i (n + 1)
      = ((List.range n).map fun k => (loNib (byteAt buf (i + k))).toNat <<< (4 * (n + 1 - 1 - k))).sum
          + (loNib (byteAt buf (i + n))).toNat := by simp [fieldAt, List.range_succ]
    _ = fieldAt buf i n * 16 + (loNib (byteAt buf (i + n))).toNat := by
      rw [List.map_congr_left hshift, List.sum_map_mul_right, fieldAt]

/-- The decoder's sum of shifted nibbles and the reading digit by digit agree, for a field of any length. -/
theorem fieldAt_eq_digitsAt (buf : List Byte) (i n : Nat) : fieldAt buf i n = digitsAt buf i n := by
  induction n with
  | zero => exact fieldAt_zero buf i
  | succ n ih => rw [fieldAt_succ, ih, loNib_toNat, digitsAt]

theorem writeFields_eq_withFields (sh : Shape) (s : State) : writeFields sh s = withFields sh s := by
  cases sh <;> simp [writeFields, withFields, fieldAt_eq_digitsAt, payloadOfs]

/-! ## The rows of format RX-DECODE (R210, R213, R214; log 11) -/

/-- A SHAPE row as an instruction is the procedure Decode. -/
theorem exec_shapeInstr (sh : Shape) (s : State) : exec (shapeInstr sh) s = .next (decodeReply sh s) := by
  cases sh <;> rfl

/-- A shape takes a Reply with its nibble bytes between the two header bytes and the terminator, and nothing else
(R217, R218). -/
theorem fitsShape_iff (sh : Shape) (s : State) :
    fitsShape sh s = true ↔ s.kind = .reply ∧ s.rlen = shapeNibbles sh + 3 := by simp [fitsShape]

/-- A Reply of the shape's length answers the fields and success, and nothing else changes. -/
theorem exec_shapeInstr_of_reply (sh : Shape) {s : State} (hkind : s.kind = .reply)
    (hlen : s.rlen = shapeNibbles sh + 3) :
    exec (shapeInstr sh) s = .next { withFields sh s with result := 0x00 } := by
  rw [exec_shapeInstr, decodeReply_fits sh s ((fitsShape_iff sh s).mpr ⟨hkind, hlen⟩), writeFields_eq_withFields]

/-- Settles O13: `exec_shapeInstr_of_reply` for each of the four shapes. -/
theorem shapesDecodeRepliesOfTheirLength : Obligations.ShapesDecodeRepliesOfTheirLength := by
  intro s hkind
  exact ⟨exec_shapeInstr_of_reply .s4 hkind, exec_shapeInstr_of_reply .s16 hkind,
    exec_shapeInstr_of_reply .s16x2 hkind, exec_shapeInstr_of_reply .s32 hkind⟩

end Sys2Proof.Proofs
end

section
/-! The framer (spec/40_framer.md R131 to R138): what the framing function can do with an answer, and the steps from
any place within a packet compute it. -/

namespace Sys2Proof.Proofs

open Sys2Proof.Config Sys2Proof.Machine

/-! ## The framing function (R138) -/

/-- Everything the next answer can do to a framing with room for one more byte (R132 to R137). -/
theorem frameFn_succ_cases {room : Nat} {bytes : List Byte} {a : Feed RxAnswer}
    {r : FrameEnd × List Byte × Feed RxAnswer} (h : frameFn (room + 1) bytes a = some r) :
    (a.head? = some .empty ∧ r = (.timeout, bytes, a.rest)) ∨
    (a.head? = some .error ∧ r = (.transportErr, bytes, a.rest)) ∨
    (a.head? = some (.byte term) ∧ r = (.packet, bytes ++ [term], a.rest)) ∨
    (∃ b, a.head? = some (.byte b) ∧ b ≠ term ∧ room = 0 ∧ r = (.oversized, bytes ++ [b], a.rest)) ∨
    (∃ b, a.head? = some (.byte b) ∧ b ≠ term ∧ room ≠ 0 ∧ frameFn room (bytes ++ [b]) a.rest = some r) := by
  unfold frameFn at h
  cases ha : a.head? with
  | none => simp [ha] at h
  | some x =>
    cases x with
    | empty => simpa [ha] using h.symm
    | error => simpa [ha] using h.symm
    | byte b =>
      by_cases hb : b = term
      · simpa [ha, hb] using h.symm
      · by_cases hroom : room = 0
        · simpa [ha, hb, hroom] using h.symm
        · simpa [ha, hb, hroom] using h

/-- The bytes stored before only stand in front of the bytes to come. -/
theorem frameFn_append {room : Nat} {pre bytes : List Byte} {a : Feed RxAnswer} {out : FrameEnd} {all : List Byte}
    {rest : Feed RxAnswer} (h : frameFn room (pre ++ bytes) a = some (out, all, rest)) :
    ∃ more, all = pre ++ more ∧ frameFn room bytes a = some (out, more, rest) := by
  induction room generalizing bytes a with
  | zero => simp [frameFn] at h
  | succ room ih =>
    rcases frameFn_succ_cases h with ⟨ha, hr⟩ | ⟨ha, hr⟩ | ⟨ha, hr⟩ | ⟨b, ha, hb, hroom, hr⟩ | ⟨b, ha, hb, hroom, hr⟩
    · cases hr; exact ⟨bytes, rfl, by simp [frameFn, ha]⟩
    · cases hr; exact ⟨bytes, rfl, by simp [frameFn, ha]⟩
    · cases hr; exact ⟨bytes ++ [term], by simp, by simp [frameFn, ha]⟩
    · cases hr; exact ⟨bytes ++ [b], by simp, by simp [frameFn, ha, hb, hroom]⟩
    · rw [List.append_assoc] at hr
      obtain ⟨more, hall, hmore⟩ := ih hr
      exact ⟨more, hall, by simpa [frameFn, ha, hb, hroom] using hmore⟩

/-- A framing stores no more bytes than it has room for (R134). -/
theorem length_le_of_frameFn {room : Nat} {bytes : List Byte} {a : Feed RxAnswer} {out : FrameEnd} {all : List Byte}
    {rest : Feed RxAnswer} (h : frameFn room bytes a = some (out, all, rest)) :
    all.length ≤ bytes.length + room := by
  induction room generalizing bytes a with
  | zero => simp [frameFn] at h
  | succ room ih =>
    rcases frameFn_succ_cases h with ⟨-, hr⟩ | ⟨-, hr⟩ | ⟨-, hr⟩ | ⟨b, -, -, -, hr⟩ | ⟨b, -, -, -, hr⟩
    · cases hr; omega
    · cases hr; omega
    · cases hr; simp
    · cases hr; simp
    · have := ih hr
      simp at this
      omega

/-- One answer more is taken for one byte more. -/
theorem frameAnswers_cons (out : FrameEnd) (b : Byte) (bytes : List Byte) :
    frameAnswers out (b :: bytes) = frameAnswers out bytes + 1 := by cases out <;> rfl

/-- `StartFrame` issued the first read; each answer but the last issues the next (R131, R135). -/
theorem frameReads_eq (out : FrameEnd) (bytes : List Byte) : frameReads out bytes = frameAnswers out bytes - 1 := by
  cases out <;> rfl

/-- Every framing takes an answer. -/
theorem frameAnswers_pos {room : Nat} {a : Feed RxAnswer} {out : FrameEnd} {bytes : List Byte} {rest : Feed RxAnswer}
    (h : frameFn room [] a = some (out, bytes, rest)) : 0 < frameAnswers out bytes := by
  cases room with
  | zero => simp [frameFn] at h
  | succ room =>
    rcases frameFn_succ_cases h with ⟨-, hr⟩ | ⟨-, hr⟩ | ⟨-, hr⟩ | ⟨b, -, -, -, hr⟩ | ⟨b, -, -, -, hr⟩
    · cases hr; simp [frameAnswers]
    · cases hr; simp [frameAnswers]
    · cases hr; simp [frameAnswers]
    · cases hr; simp [frameAnswers]
    · obtain ⟨more, rfl, -⟩ := frameFn_append (pre := [b]) (bytes := []) hr
      simp [frameAnswers_cons]

/-! ## The steps of a framing -/

/-- The state with the stream's next answer taken from the port (R63). -/
def answered (s : State) : State := { s with rxStream := s.rxStream.rest }

/-- With no Reset sampled, a step in RXW accepts the stream's next answer (R79, R141). -/
theorem step_rxRsp {s : State} {a : RxAnswer} (hlegal : s.cfg.legal) (hphase : s.phase = .rxw) (hrst : s.rst = .silent)
    (ha : s.rxStream.head? = some a) : step s = onEvent (.rxRsp a) (answered s) := by
  refine step_event hlegal ?_
  simp [nextEvent, resetSampled, dropSample, answered, hrst, hphase, ha]

/-- With no Reset sampled, a step in HDW accepts the handler's return (R160). -/
theorem step_handlerReturn {s : State} (hlegal : s.cfg.legal) (hphase : s.phase = .hdw) (hrst : s.rst = .silent)
    {u : Unit} (hu : s.handlerReturns.head? = some u) :
    step s = .next (startFrame { s with handlerReturns := s.handlerReturns.rest }) := by
  have hnext : nextEvent s = some (.handlerReturn, { s with handlerReturns := s.handlerReturns.rest }) := by
    simp [nextEvent, resetSampled, dropSample, hrst, hphase, hu]
  rw [step_event hlegal hnext, onEvent_handlerReturn, handlerReturned, if_pos hphase]

/-- A byte stored within the buffer is the packet's next byte (R132). -/
theorem rxPacket_storeByte (b : Byte) {s : State} (h : s.rlen < s.rbuf.length) :
    rxPacket (storeByte b s) = rxPacket s ++ [b] := by
  have hset : s.rbuf.set s.rlen b = s.rbuf.take s.rlen ++ b :: s.rbuf.drop (s.rlen + 1) := by
    rw [List.set_eq_take_append_cons_drop, if_pos h]
  have hlen : (s.rbuf.take s.rlen).length = s.rlen := List.length_take_of_le h.le
  rw [rxPacket, rxPacket, storeByte_rbuf, storeByte_rlen, hset, List.take_append, hlen]
  simp

/-- The state in which a framing that takes in `bytes` from here on ends: the packet in the buffer, the bytes beyond it
as they were (log 12), one read issued for each stored byte but the last of a complete or over-long packet (R138). -/
def framed (out : FrameEnd) (bytes : List Byte) (rest : Feed RxAnswer) (s : State) : State :=
  { s with rbuf := rxPacket s ++ bytes ++ s.rbuf.drop (s.rlen + bytes.length), rlen := s.rlen + bytes.length,
           rxStream := rest, outputs := s.outputs ++ List.replicate (frameReads out bytes) .rxReq }

/-- Where the transport answers Empty or Error at once, no byte is stored (R136, R137). -/
theorem framed_nil {out : FrameEnd} (s : State) (hreads : frameReads out [] = 0) :
    framed out [] s.rxStream.rest s = answered s := by
  simp [framed, answered, hreads, rxPacket]

/-- The byte that ends a framing is stored, and no read is issued after it (R133, R134). -/
theorem framed_singleton {out : FrameEnd} (b : Byte) {s : State} (h : s.rlen < s.rbuf.length)
    (hreads : frameReads out [b] = 0) : framed out [b] s.rxStream.rest s = storeByte b (answered s) := by
  simp [framed, answered, hreads, storeByte, rxPacket, List.set_eq_take_append_cons_drop, h]

/-- A framing that goes on is one byte stored, one read issued, and the rest of it from there (R135). -/
theorem framed_cons {out : FrameEnd} (b : Byte) {bytes : List Byte} (rest : Feed RxAnswer) {s : State}
    (h : s.rlen < s.rbuf.length) (hpos : 0 < frameAnswers out bytes) :
    framed out (b :: bytes) rest s = framed out bytes rest (emit .rxReq (storeByte b (answered s))) := by
  have hreads : frameReads out (b :: bytes) = 1 + frameReads out bytes := by
    rw [frameReads_eq, frameReads_eq, frameAnswers_cons]
    omega
  have hpacket : rxPacket (emit .rxReq (storeByte b (answered s))) = rxPacket s ++ [b] :=
    rxPacket_storeByte b (s := answered s) h
  have hlen : s.rlen + (b :: bytes).length = s.rlen + 1 + bytes.length := by
    rw [List.length_cons]
    omega
  have hdrop : (s.rbuf.set s.rlen b).drop (s.rlen + 1 + bytes.length) = s.rbuf.drop (s.rlen + 1 + bytes.length) :=
    List.drop_set_of_lt (by omega)
  rw [framed, framed, hreads, hpacket, hlen, List.replicate_add]
  simp [answered, emit, storeByte, hdrop]

/-- From any place within a packet the steps compute the framing function of the answers to come, and end by running
the instruction it names (R133 to R138). -/
theorem run_frameFn {room : Nat} {s : State} {out : FrameEnd} {bytes : List Byte} {rest : Feed RxAnswer}
    (hlegal : s.cfg.legal) (hbuf : s.rbuf.length = s.cfg.maxLen) (hphase : s.phase = .rxw) (hrst : s.rst = .silent)
    (hroom : s.rlen + room = s.cfg.maxLen) (h : frameFn room [] s.rxStream = some (out, bytes, rest)) :
    Host.Core.run Sys2Proof.core (frameAnswers out bytes) s =
      exec (frameInstr out (rxPacket s ++ bytes)) (framed out bytes rest s) := by
  induction room generalizing s bytes with
  | zero => simp [frameFn] at h
  | succ room ih =>
    have hlt : s.rlen < s.cfg.maxLen := by omega
    have hin : s.rlen < s.rbuf.length := by omega
    have hbyte := fun b => onEvent_byte b (answered s) hphase hlt
    rcases frameFn_succ_cases h with ⟨ha, hr⟩ | ⟨ha, hr⟩ | ⟨ha, hr⟩ | ⟨b, ha, hb, hfull, hr⟩ | ⟨b, ha, hb, hfull, hr⟩
    · cases hr
      rw [framed_nil s rfl]
      exact (run_one s).trans (step_rxRsp hlegal hphase hrst ha)
    · cases hr
      rw [framed_nil s rfl]
      exact (run_one s).trans (step_rxRsp hlegal hphase hrst ha)
    · cases hr
      have hpacket : rxPacket (storeByte term (answered s)) = rxPacket s ++ [term] := rxPacket_storeByte _ hin
      rw [List.nil_append, framed_singleton term hin rfl, frameInstr, ← hpacket]
      exact (run_one s).trans ((step_rxRsp hlegal hphase hrst ha).trans ((hbyte term).trans (if_pos rfl)))
    · cases hr
      have hlast : (answered s).rlen + 1 = (answered s).cfg.maxLen := by rwa [hfull] at hroom
      rw [List.nil_append, framed_singleton b hin rfl]
      refine (run_one s).trans ((step_rxRsp hlegal hphase hrst ha).trans ?_)
      rw [hbyte, if_neg hb, if_pos hlast]
      rfl
    · obtain ⟨more, rfl, hmore⟩ := frameFn_append (pre := [b]) (bytes := []) hr
      have hroomAfter : s.rlen + 1 + room = s.cfg.maxLen := by omega
      have hnotLast : (answered s).rlen + 1 ≠ (answered s).cfg.maxLen := by
        show s.rlen + 1 ≠ s.cfg.maxLen
        omega
      have hstep : step s = .next (emit .rxReq (storeByte b (answered s))) := by
        rw [step_rxRsp hlegal hphase hrst ha, hbyte, if_neg hb, if_neg hnotLast]
      have hpacket : rxPacket (emit .rxReq (storeByte b (answered s))) = rxPacket s ++ [b] := rxPacket_storeByte b hin
      have hbufAfter : (s.rbuf.set s.rlen b).length = s.cfg.maxLen := by rw [List.length_set, hbuf]
      have hrun := ih (s := emit .rxReq (storeByte b (answered s))) hlegal hbufAfter hphase hrst hroomAfter hmore
      rw [List.singleton_append, frameAnswers_cons, run_succ _ hstep, hrun, hpacket,
        framed_cons b rest hin (frameAnswers_pos hmore), List.append_assoc, List.singleton_append]

end Sys2Proof.Proofs
end

section
/-! The post-checks of the modes (spec/42_handshake.md R181, R184; spec/45_control.md R233): what an operation reports of
its handshake's end. -/

namespace Sys2Proof.Proofs

open Sys2Proof.Config Sys2Proof.Machine

/-! ## The post-checks (R181, R184, R233) -/

theorem byteAt_take {buf : List Byte} {i n : Nat} (h : i < n) : byteAt (buf.take n) i = byteAt buf i := by
  simp [byteAt, h]

/-- A field that lies within the packet does not see the bytes beyond it (R34). -/
theorem fieldAt_take {buf : List Byte} {i n len : Nat} (h : i + n ≤ len) :
    fieldAt (buf.take len) i n = fieldAt buf i n := by
  refine congrArg List.sum (List.map_congr_left fun k hk => ?_)
  have := List.mem_range.mp hk
  rw [byteAt_take (by omega)]

theorem rxPacket_length {s : State} (h : s.rlen ≤ s.rbuf.length) : (rxPacket s).length = s.rlen :=
  List.length_take_of_le h

/-- A Reply packet the decoding function takes is decoded to its values (R214, R220). -/
theorem decodeReply_of_decodeFn_some {sh : Shape} {s : State} (hkind : s.kind = .reply) (hlen : s.rlen ≤ s.rbuf.length)
    {v : Nat × Option Nat} (h : decodeFn sh (rxPacket s) = some v) :
    decodeReply sh s =
      { s with val0 := BitVec.ofNat 32 v.1, val1 := (v.2.map (BitVec.ofNat 16)).getD s.val1, result := 0x00 } := by
  unfold decodeFn at h
  rw [rxPacket_length hlen] at h
  split at h
  case isFalse => cases h
  case isTrue hfit =>
    rw [decodeReply_fits sh s ((fitsShape_iff sh s).mpr ⟨hkind, hfit⟩)]
    have hfield {i n : Nat} (hin : i + n ≤ shapeNibbles sh + 3) : fieldAt (rxPacket s) i n = fieldAt s.rbuf i n :=
      fieldAt_take (hin.trans_eq hfit.symm)
    cases sh with
    | s4 | s16 | s16x2 | s32 =>
      cases h
      simp only [shapeNibbles] at hfield
      simp [writeFields, payloadOfs, hfield]

/-- One it does not take gives UnexpectedPacket (R215, R217, R220). -/
theorem decodeReply_of_decodeFn_none {sh : Shape} {s : State} (hlen : s.rlen ≤ s.rbuf.length)
    (h : decodeFn sh (rxPacket s) = none) : decodeReply sh s = { s with result := 0xFA } := by
  refine decodeReply_fails sh s (Bool.eq_false_iff.mpr fun hfits => ?_)
  obtain ⟨-, hfit⟩ := (fitsShape_iff sh s).mp hfits
  unfold decodeFn at h
  rw [rxPacket_length hlen, if_pos hfit] at h
  cases sh <;> cases h

/-- Past a Reply, `PostInq` replaces the code of every success (R43, R184). -/
theorem inqUnexpected_of_ne_reply {k : Kind} (h : k ≠ .reply) (c : Byte) : inqUnexpected k c = success k c := by
  have hreply : (k == .reply) = false := beq_eq_false_iff_ne.mpr h
  simp [inqUnexpected, success, codeSuccess, hreply]

/-- `PostAssign` replaces the code of every success but an enumeration reply (R43, R233). -/
theorem assignUnexpected_iff (k : Kind) (c : Byte) :
    assignUnexpected k c = true ↔ success k c = true ∧ k ≠ .addrEnum := by
  cases k <;> simp [assignUnexpected, success, codeSuccess]

/-- Only an `INQ` that got a Reply reports values (R184). -/
theorem reportedValues_eq_none {mode : Mode} {e : HandshakeEnd} (h : ¬(mode = .inq ∧ e.kind = .reply)) (sh : Shape) :
    reportedValues mode sh e = none := if_neg h

theorem reportedValues_inq_reply {e : HandshakeEnd} (h : e.kind = .reply) (sh : Shape) :
    reportedValues .inq sh e = decodeFn sh e.bytes := if_pos ⟨rfl, h⟩

/-- The state with what an operation reports of its handshake's end in `result`, `val0` and `val1`. -/
def reportedIn (mode : Mode) (sh : Shape) (e : HandshakeEnd) (s : State) : State :=
  { s with
    result := reportedResult mode sh e
    val0 := ((reportedValues mode sh e).map fun v => BitVec.ofNat 32 v.1).getD s.val0
    val1 := ((reportedValues mode sh e).bind fun v => v.2.map (BitVec.ofNat 16)).getD s.val1 }

/-- Without values to report only the result is set. -/
theorem reportedIn_of_none {mode : Mode} {sh : Shape} {e : HandshakeEnd} (s : State)
    (h : reportedValues mode sh e = none) : reportedIn mode sh e s = { s with result := reportedResult mode sh e } := by
  simp [reportedIn, h]

/-- `PostInq` makes of a latched end what an `INQ` reports of it (R184). A Reply has the success code. -/
theorem postInq_latched {s : State} {e : HandshakeEnd} (hkind : s.kind = e.kind) (hresult : s.result = e.result)
    (hbytes : rxPacket s = e.bytes) (hlen : s.rlen ≤ s.rbuf.length) (hreply : e.kind = .reply → e.result = 0x00) :
    postInq s = reportedIn .inq s.shapeR e s := by
  by_cases hr : e.kind = .reply
  · have hk : s.kind = .reply := hkind.trans hr
    have hv := reportedValues_inq_reply hr s.shapeR
    rw [postInq, if_pos hk]
    cases hd : decodeFn s.shapeR e.bytes with
    | none =>
      rw [decodeReply_of_decodeFn_none hlen (by rw [hbytes, hd])]
      simp [reportedIn, reportedResult, success, hr, hv, hd, hreply hr]
    | some v =>
      rw [decodeReply_of_decodeFn_some hk hlen (by rw [hbytes, hd])]
      simp [reportedIn, reportedResult, hv, hd, hreply hr]
  · have hv := reportedValues_eq_none (mode := .inq) (fun h => hr h.2) s.shapeR
    have hu : inqUnexpected s.kind s.result = success e.kind e.result := by
      rw [hkind, hresult, inqUnexpected_of_ne_reply hr]
    rw [postInq, if_neg (hkind ▸ hr), hu, reportedIn_of_none s hv]
    by_cases hs : success e.kind e.result = true
    · simp [reportedResult, hs, hv, codeUnexpected]
    · rw [if_neg hs, reportedResult, if_neg (fun h => hs h.1), ← hresult]

/-- `PostAssign` makes of a latched end what an `ASSIGN` reports of it (R233). -/
theorem postAssign_latched {s : State} {e : HandshakeEnd} (hkind : s.kind = e.kind) (hresult : s.result = e.result) :
    postAssign s = reportedIn .assign s.shapeR e s := by
  have hu : assignUnexpected s.kind s.result = true ↔ success e.kind e.result = true ∧ e.kind ≠ .addrEnum := by
    rw [hkind, hresult, assignUnexpected_iff]
  rw [postAssign, reportedIn_of_none s (reportedValues_eq_none (by simp) _), reportedResult]
  by_cases hs : success e.kind e.result = true ∧ e.kind ≠ .addrEnum
  · rw [if_pos (hu.mpr hs), if_pos hs, codeUnexpected]
  · rw [if_neg (mt hu.mp hs), if_neg hs, ← hresult]

/-- The post-check of every mode makes of a latched end of the handshake what the operation reports of it (R181). -/
theorem postCheck_latched {s : State} {e : HandshakeEnd} (hkind : s.kind = e.kind) (hresult : s.result = e.result)
    (hbytes : rxPacket s = e.bytes) (hlen : s.rlen ≤ s.rbuf.length) (hreply : e.kind = .reply → e.result = 0x00) :
    postCheck s = reportedIn s.mode s.shapeR e s := by
  cases hmode : s.mode with
  | recv | wait | send =>
    rw [postCheck, hmode, reportedIn_of_none s (reportedValues_eq_none (by simp) _), reportedResult, ← hresult]
  | inq =>
    rw [postCheck, hmode]
    exact postInq_latched hkind hresult hbytes hlen hreply
  | assign =>
    rw [postCheck, hmode]
    exact postAssign_latched hkind hresult

end Sys2Proof.Proofs
end

section
/-! The handshake loop (spec/42_handshake.md R181, R187): one turn of it does what the handshake function says, a packet
of it either starts the next or ends the operation, and the statement O43. -/

namespace Sys2Proof.Proofs

open Sys2Proof.Config Sys2Proof.Machine

/-! ## One turn of the handshake loop (R151 to R158, R181, R187) -/

/-- A terminal outcome that is no Acknowledge, or that comes in RECV mode, ends the operation with the post-check of its
mode, which in RECV mode does nothing (R139, R181). -/
theorem terminal_finishes {k : Kind} {s : State} (c : Byte) (h : k = .ack → s.mode = .recv) :
    terminal k c s = finish (postCheck (latch k c s)) := by
  rcases terminal_cases k c s with ⟨hm, ht⟩ | ⟨hm, hk, -⟩ | ⟨-, -, ht⟩
  · rw [ht, postCheck, latch_mode, hm]
  · exact absurd (h hk) hm
  · exact ht

section
variable {s : State} {i : Instr}

/-- A turn that goes on with nothing to deliver starts the next packet; an absorbed Acknowledge stays latched. -/
theorem exec_of_again_none (h : loopTurn s.cfg s.mode s.irEn s.netEn i = some (.again none)) :
    exec i s = .next (startFrame s) ∨ exec i s = .next (startFrame (latch .ack codeAcknowledge s)) := by
  cases i with
  | ack hdr socket =>
    have hmode : s.mode ≠ .recv := by rintro hm; simp [loopTurn, hm] at h
    exact .inr (congrArg _ (terminal_absorbs _ s hmode))
  | pushIr hdr irId key =>
    have hoff : s.irEn = false := by simpa [loopTurn] using h
    exact .inl (by simp [exec, execPushIr, deliverPush, hoff])
  | pushNet hdr =>
    have hoff : s.netEn = false := by simpa [loopTurn] using h
    exact .inl (by simp [exec, execPushNet, deliverPush, hoff])
  | addrEnumReply n => simp only [loopTurn] at h; split at h <;> cases h
  | _ => simp [loopTurn] at h

/-- A turn that delivers hands its push event to the handler. -/
theorem exec_of_again_some {o : Output} (h : loopTurn s.cfg s.mode s.irEn s.netEn i = some (.again (some o))) :
    exec i s = .next (delivered o s) ∧ o.isPush = true := by
  cases i with
  | ack hdr socket => simp only [loopTurn] at h; split at h <;> cases h
  | pushIr hdr irId key =>
    obtain ⟨hon, rfl⟩ : s.irEn = true ∧ .irEvent (camPort hdr) irId key = o := by simpa [loopTurn] using h
    exact ⟨by simp [exec, execPushIr, deliverPush, hon, emit, delivered], rfl⟩
  | pushNet hdr =>
    obtain ⟨hon, rfl⟩ : s.netEn = true ∧ .netEvent (camPort hdr) = o := by simpa [loopTurn] using h
    exact ⟨by simp [exec, execPushNet, deliverPush, hon, emit, delivered], rfl⟩
  | addrEnumReply n => simp only [loopTurn] at h; split at h <;> cases h
  | _ => simp [loopTurn] at h

/-- A turn that leaves the loop records its count and is a terminal outcome with its kind and code; an Acknowledge leaves
it in RECV mode only, and a Reply has the success code. -/
theorem exec_of_leave {k : Kind} {c : Byte} {count : Option (BitVec 3)} (hphase : s.phase = .rxw)
    (h : loopTurn s.cfg s.mode s.irEn s.netEn i = some (.leave k c count)) :
    exec i s = .next (terminal k c { s with camcnt := count.getD s.camcnt }) ∧
      (k = .ack → s.mode = .recv) ∧ (k = .reply → c = 0x00) := by
  cases i with
  | reply hdr socket payload => cases h; exact ⟨rfl, nofun, fun _ => rfl⟩
  | ack hdr socket =>
    simp only [loopTurn] at h
    split at h <;> cases h
    next hmode => exact ⟨rfl, fun _ => hmode, nofun⟩
  | undersized | broadcast | unknown | oversized => cases h; exact ⟨rfl, nofun, nofun⟩
  | error hdr socket code => cases h; exact ⟨rfl, nofun, nofun⟩
  | addrEnumReply n =>
    simp only [loopTurn] at h
    split at h <;> cases h
    next hcount => exact ⟨if_pos hcount, nofun, nofun⟩
    next hcount => exact ⟨if_neg hcount, nofun, nofun⟩
  | timeout | transportErr => cases h; exact ⟨whenReading_reading s _ hphase, nofun, nofun⟩
  | pushIr | pushNet => simp [loopTurn] at h
  | _ => cases h

end

/-! ## The start of a packet -/

/-- The block waits for the first byte of a packet, and no Reset is to come (R131). -/
structure PacketStart (s : State) : Prop where
  legal : s.cfg.legal
  buffers : BuffersWf s
  reading : s.phase = .rxw
  empty : s.rlen = 0
  noReset : s.rst = .silent

/-- After a framing from the start of a packet, exactly its bytes are the packet (R133). -/
theorem framed_rxPacket {s : State} (h : s.rlen = 0) (out : FrameEnd) (bytes : List Byte) (rest : Feed RxAnswer) :
    rxPacket (framed out bytes rest s) = bytes := by
  simp [rxPacket, framed, h]

theorem framed_buffersWf {s : State} (hs : PacketStart s) {out : FrameEnd} {bytes : List Byte} {rest : Feed RxAnswer}
    (h : frameFn s.cfg.maxLen [] s.rxStream = some (out, bytes, rest)) : BuffersWf (framed out bytes rest s) := by
  have hle : bytes.length ≤ s.cfg.maxLen := by simpa using length_le_of_frameFn h
  have hbuf := hs.buffers.rbuf_length
  refine ⟨?_, hs.buffers.tbuf_length, ?_, hs.buffers.tlen_le⟩
  · simp [framed, rxPacket, hs.empty]
    omega
  · simpa [framed, hs.empty] using hle

/-- A framing delivers no push event. -/
theorem framed_pushes (out : FrameEnd) (bytes : List Byte) (rest : Feed RxAnswer) (s : State) :
    (framed out bytes rest s).outputs.filter Output.isPush = s.outputs.filter Output.isPush := by
  simp [framed, Output.isPush]

/-- The steps of one packet, from its start (R138). -/
theorem PacketStart.run_frame {s : State} (hs : PacketStart s) {out : FrameEnd} {bytes : List Byte}
    {rest : Feed RxAnswer} (h : frameFn s.cfg.maxLen [] s.rxStream = some (out, bytes, rest)) :
    Host.Core.run Sys2Proof.core (frameAnswers out bytes) s = exec (frameInstr out bytes) (framed out bytes rest s) := by
  have hpacket : rxPacket s = [] := by rw [rxPacket, hs.empty, List.take_zero]
  rw [run_frameFn hs.legal hs.buffers.rbuf_length hs.reading hs.noReset (by rw [hs.empty, Nat.zero_add]) h, hpacket,
    List.nil_append]

/-- What a turn of the loop that goes on leaves behind: the block at the start of a packet, the answers left to come,
the push events delivered, a handler return taken for each, and what the rest of the operation depends on as it was. -/
structure GoesOn (s : State) (pushes : List Output) (rest : Feed RxAnswer) (t : State) : Prop where
  start : PacketStart t
  stream : t.rxStream = rest
  cfg : t.cfg = s.cfg
  mode : t.mode = s.mode
  shapeR : t.shapeR = s.shapeR
  irEn : t.irEn = s.irEn
  netEn : t.netEn = s.netEn
  tbuf : t.tbuf = s.tbuf
  tlen : t.tlen = s.tlen
  val0 : t.val0 = s.val0
  val1 : t.val1 = s.val1
  camcnt : t.camcnt = s.camcnt
  pushed : t.outputs.filter Output.isPush = s.outputs.filter Output.isPush ++ pushes
  returns : ∀ n, s.handlerReturns.enough (pushes.length + n) → t.handlerReturns.enough n

/-- Starting the next packet after a framing goes on with the operation, whatever stands in `kind`, `result` and the
phase, with the push events and the handler returns that the outputs and the feed account for. -/
theorem goesOn_startFrame {s : State} (hs : PacketStart s) {out : FrameEnd} {bytes : List Byte} {rest : Feed RxAnswer}
    (hframe : frameFn s.cfg.maxLen [] s.rxStream = some (out, bytes, rest)) {pushes outputs : List Output}
    {returns : Feed Unit} (k : Kind) (c : Byte) (p : Phase)
    (hpushed : outputs.filter Output.isPush = s.outputs.filter Output.isPush ++ pushes)
    (hreturns : ∀ n, s.handlerReturns.enough (pushes.length + n) → returns.enough n) :
    GoesOn s pushes rest (startFrame
      { framed out bytes rest s with
        kind := k, result := c, phase := p, outputs := outputs, handlerReturns := returns }) where
  start :=
    { legal := hs.legal
      buffers := startFrame_buffersWf ((framed_buffersWf hs hframe).of_eq rfl rfl rfl rfl rfl)
      reading := rfl
      empty := rfl
      noReset := hs.noReset }
  stream := rfl
  cfg := rfl
  mode := rfl
  shapeR := rfl
  irEn := rfl
  netEn := rfl
  tbuf := rfl
  tlen := rfl
  val0 := rfl
  val1 := rfl
  camcnt := rfl
  pushed := by simp [Output.isPush, hpushed]
  returns := hreturns

/-! A feed that offers one thing more than `n` offers one now and `n` after it (log 4). -/

theorem head?_of_enough_succ {α : Type} {f : Feed α} {n : Nat} (h : f.enough (n + 1)) : ∃ a, f.head? = some a := by
  cases hf : f.head? with
  | some a => exact ⟨a, rfl⟩
  | none =>
    rw [Feed.head?_eq_none hf] at h
    simp [Feed.enough, Feed.silent] at h

theorem enough_rest {α : Type} {f : Feed α} {n : Nat} (h : f.enough (n + 1)) : f.rest.enough n := by
  obtain ⟨a, ha⟩ := head?_of_enough_succ h
  rcases Feed.cases_of_head? ha with ⟨as, hf, hrest⟩ | ⟨as, -, hrest⟩
  · rw [hf] at h
    simpa [hrest, Feed.enough] using h
  · exact .inr (by simp [hrest])

/-- A packet of the loop that ends nothing: the block frames it, delivers its push event if there is one and its handler
is registered, and waits for the next packet (R151 to R153, R160). -/
theorem run_again {s : State} (hs : PacketStart s) {out : FrameEnd} {bytes : List Byte} {rest : Feed RxAnswer}
    {event : Option Output} (hframe : frameFn s.cfg.maxLen [] s.rxStream = some (out, bytes, rest))
    (hturn : loopTurn s.cfg s.mode s.irEn s.netEn (frameInstr out bytes) = some (.again event))
    (hreturns : s.handlerReturns.enough event.toList.length) :
    ∃ n t, Host.Core.run Sys2Proof.core n s = .next t ∧ GoesOn s event.toList rest t := by
  let u := framed out bytes rest s
  have hrun : Host.Core.run Sys2Proof.core (frameAnswers out bytes) s = exec (frameInstr out bytes) u :=
    hs.run_frame hframe
  have hpushes : u.outputs.filter Output.isPush = s.outputs.filter Output.isPush := framed_pushes out bytes rest s
  cases event with
  | none =>
    have hpushed : u.outputs.filter Output.isPush = s.outputs.filter Output.isPush ++ [] := by simpa using hpushes
    have hsame (n : Nat) (h : s.handlerReturns.enough (0 + n)) : s.handlerReturns.enough n := by simpa using h
    rcases exec_of_again_none (s := u) hturn with hexec | hexec
    · exact ⟨_, _, hrun.trans hexec, goesOn_startFrame hs hframe s.kind s.result .rxw hpushed hsame⟩
    · exact ⟨_, _, hrun.trans hexec, goesOn_startFrame hs hframe .ack codeAcknowledge .rxw hpushed hsame⟩
  | some o =>
    obtain ⟨hexec, hpush⟩ := exec_of_again_some (s := u) hturn
    obtain ⟨r, hr⟩ := head?_of_enough_succ hreturns
    have hpushed : (u.outputs ++ [o]).filter Output.isPush = s.outputs.filter Output.isPush ++ [o] := by
      simp [hpushes, hpush]
    have hrest (n : Nat) (h : s.handlerReturns.enough (1 + n)) : s.handlerReturns.rest.enough n :=
      enough_rest (by rwa [Nat.add_comm] at h)
    refine ⟨frameAnswers out bytes + 1, _, ?_,
      goesOn_startFrame hs hframe s.kind s.result .hdw hpushed hrest⟩
    rw [run_add 1 (hrun.trans hexec), run_one]
    exact step_handlerReturn (s := delivered o u) hs.legal rfl hs.noReset hr

/-- The packet that ends the handshake: the operation ends with its post-check, and reports it. -/
theorem run_leave {s : State} (hs : PacketStart s) {out : FrameEnd} {bytes : List Byte} {rest : Feed RxAnswer}
    {k : Kind} {c : Byte} {count : Option (BitVec 3)}
    (hframe : frameFn s.cfg.maxLen [] s.rxStream = some (out, bytes, rest))
    (hturn : loopTurn s.cfg s.mode s.irEn s.netEn (frameInstr out bytes) = some (.leave k c count)) :
    ∃ n t, Host.Core.run Sys2Proof.core n s = .next t ∧
      HandshakeReported s s.mode s.shapeR ⟨k, c, bytes, count, [], rest⟩ t ∧ t.tbuf = s.tbuf ∧ t.tlen = s.tlen := by
  let e : HandshakeEnd := ⟨k, c, bytes, count, [], rest⟩
  let u := framed out bytes rest s
  let r := { u with camcnt := count.getD u.camcnt }
  let w := latch k c r
  have hpacket : rxPacket w = bytes := framed_rxPacket hs.empty out bytes rest
  have hpushes : u.outputs.filter Output.isPush = s.outputs.filter Output.isPush := framed_pushes out bytes rest s
  have hlen : w.rlen ≤ w.rbuf.length := by
    have hwf := framed_buffersWf hs hframe
    exact hwf.rlen_le.trans_eq hwf.rbuf_length.symm
  obtain ⟨hexec, hAck, hReply⟩ := exec_of_leave (s := u) hs.reading hturn
  have hpost : postCheck w = reportedIn s.mode s.shapeR e w := postCheck_latched (e := e) rfl rfl hpacket hlen hReply
  have hend : terminal k c r = finish (reportedIn s.mode s.shapeR e w) :=
    (terminal_finishes (s := r) c hAck).trans (congrArg finish hpost)
  have hrun : Host.Core.run Sys2Proof.core (frameAnswers out bytes) s =
      .next (finish (reportedIn s.mode s.shapeR e w)) :=
    (hs.run_frame hframe).trans (hexec.trans (congrArg _ hend))
  refine ⟨_, _, hrun, ?_, rfl, rfl⟩
  exact {
    idle := rfl
    kind := rfl
    result := rfl
    done := by rw [finish_outputs]; exact List.getLast?_concat
    packet := hpacket
    left := rfl
    count := rfl
    events := by
      rw [finish_outputs, List.filter_append]
      exact congrArg (· ++ []) hpushes
    val0 := rfl
    val1 := rfl }

/-- What a later part of an operation reports, the whole reports, with the push events before it put in front. -/
theorem GoesOn.reported {s t v : State} {pushes more : List Output} {rest : Feed RxAnswer} {e : HandshakeEnd}
    (h : GoesOn s pushes rest t) (hevents : e.events = pushes ++ more)
    (hr : HandshakeReported t t.mode t.shapeR { e with events := more } v) :
    HandshakeReported s s.mode s.shapeR e v := by
  obtain ⟨idle, kind, result, done, packet, left, count, events, val0, val1⟩ := hr
  rw [h.mode, h.shapeR] at result done val0 val1
  exact {
    idle := idle
    kind := kind
    result := result
    done := done
    packet := packet
    left := left
    count := by rw [count, h.camcnt]
    events := by rw [events, h.pushed, hevents, List.append_assoc]
    val0 := by rw [val0, h.val0]; rfl
    val1 := by rw [val1, h.val1]; rfl }

/-! ## The handshake function (R187) -/

/-- One packet of the handshake function: it ends nothing and the function goes on with its event, if any, or it is the
last. -/
theorem handshakeFn_succ_cases {prm : Params} {mode : Mode} {ir net : Bool} {fuel : Nat} {a : Feed RxAnswer}
    {events : List Output} {e : HandshakeEnd} (h : handshakeFn prm mode ir net (fuel + 1) a events = some e) :
    ∃ out bytes rest, frameFn prm.maxLen [] a = some (out, bytes, rest) ∧
      ((∃ event, loopTurn prm mode ir net (frameInstr out bytes) = some (.again event) ∧
          handshakeFn prm mode ir net fuel rest (events ++ event.toList) = some e) ∨
        (∃ k c count, loopTurn prm mode ir net (frameInstr out bytes) = some (.leave k c count) ∧
          e = ⟨k, c, bytes, count, events, rest⟩)) := by
  unfold handshakeFn at h
  cases hframe : frameFn prm.maxLen [] a with
  | none => simp [hframe] at h
  | some r =>
    obtain ⟨out, bytes, rest⟩ := r
    refine ⟨out, bytes, rest, rfl, ?_⟩
    cases hturn : loopTurn prm mode ir net (frameInstr out bytes) with
    | none => simp [hframe, hturn] at h
    | some turn =>
      cases turn with
      | again event =>
        refine .inl ⟨event, rfl, ?_⟩
        cases event <;> simpa [hframe, hturn] using h
      | leave k c count => exact .inr ⟨k, c, count, rfl, by simpa [hframe, hturn] using h.symm⟩

/-- A packet that ends nothing adds its event, if any, and the function goes on. -/
theorem handshakeFn_again {prm : Params} {mode : Mode} {ir net : Bool} {fuel : Nat} {a rest : Feed RxAnswer}
    {out : FrameEnd} {bytes : List Byte} {event : Option Output} (events : List Output)
    (hframe : frameFn prm.maxLen [] a = some (out, bytes, rest))
    (hturn : loopTurn prm mode ir net (frameInstr out bytes) = some (.again event)) :
    handshakeFn prm mode ir net (fuel + 1) a events =
      handshakeFn prm mode ir net fuel rest (events ++ event.toList) := by
  cases event <;> simp [handshakeFn, hframe, hturn]

/-- The push events delivered before only stand in front of those to come. -/
theorem handshakeFn_append {prm : Params} {mode : Mode} {ir net : Bool} {fuel : Nat} {a : Feed RxAnswer}
    {pre events : List Output} {e : HandshakeEnd} (h : handshakeFn prm mode ir net fuel a (pre ++ events) = some e) :
    ∃ more, e.events = pre ++ more ∧ handshakeFn prm mode ir net fuel a events = some { e with events := more } := by
  induction fuel generalizing a events with
  | zero => simp [handshakeFn] at h
  | succ fuel ih =>
    obtain ⟨out, bytes, rest, hframe, ⟨event, hturn, hnext⟩ | ⟨k, c, count, hturn, rfl⟩⟩ := handshakeFn_succ_cases h
    · rw [List.append_assoc] at hnext
      obtain ⟨more, hevents, hmore⟩ := ih hnext
      exact ⟨more, hevents, by rw [handshakeFn_again events hframe hturn, hmore]⟩
    · exact ⟨events, rfl, by simp [handshakeFn, hframe, hturn]⟩

/-- From the start of a packet the steps compute the handshake function, packet by packet, and report its end. -/
theorem run_handshake {fuel : Nat} {s : State} {e : HandshakeEnd} (hs : PacketStart s)
    (h : handshakeFn s.cfg s.mode s.irEn s.netEn fuel s.rxStream [] = some e)
    (hreturns : s.handlerReturns.enough e.events.length) :
    ∃ n t, Host.Core.run Sys2Proof.core n s = .next t ∧
      HandshakeReported s s.mode s.shapeR e t ∧ t.tbuf = s.tbuf ∧ t.tlen = s.tlen := by
  induction fuel generalizing s e with
  | zero => simp [handshakeFn] at h
  | succ fuel ih =>
    obtain ⟨out, bytes, rest, hframe, ⟨event, hturn, hnext⟩ | ⟨k, c, count, hturn, rfl⟩⟩ := handshakeFn_succ_cases h
    · obtain ⟨more, hevents, hmore⟩ :=
        handshakeFn_append (pre := event.toList) (events := []) (by simpa using hnext)
      rw [hevents, List.length_append] at hreturns
      obtain ⟨m, t, hfirst, hgoes⟩ := run_again hs hframe hturn (hreturns.imp_left (by omega))
      have hlater : handshakeFn t.cfg t.mode t.irEn t.netEn fuel t.rxStream [] = some { e with events := more } := by
        rw [hgoes.cfg, hgoes.mode, hgoes.irEn, hgoes.netEn, hgoes.stream, hmore]
      obtain ⟨n, v, hlast, hreported, htbuf, htlen⟩ := ih hgoes.start hlater (hgoes.returns _ hreturns)
      exact ⟨m + n, v, (run_add n hfirst).trans hlast, hgoes.reported hevents hreported, htbuf.trans hgoes.tbuf,
        htlen.trans hgoes.tlen⟩
    · exact run_leave hs hframe hturn

/-- Settles O43: the invariant gives the start of a packet, and `run_handshake` goes through its packets by induction on
the bound of the handshake function. -/
theorem stepsComputeTheHandshakeFunction : Obligations.StepsComputeTheHandshakeFunction := by
  intro s fuel e hinv hphase hrlen hrst h hreturns
  exact run_handshake ⟨hinv.legal, hinv.buffers, hphase, hrlen, hrst⟩ h hreturns

end Sys2Proof.Proofs
end

section
/-! The classifier (spec/41_classifier.md R154, R156, R160): which packets rules 5 and 7 take and how they end, the
return of a handler, and the statements O24, O25 and O30. -/

namespace Sys2Proof.Proofs

open Sys2Proof.Config Sys2Proof.Machine

/-! ## Rule 5 (R154) -/

/-- Rules 1 to 4 all ask for three bytes or more, so rule 5 is reached by every shorter packet. -/
theorem classify_of_length_lt {p : List Byte} (h : p.length < 3) : classify p = .undersized p.dropLast.head? := by
  have h1 : ¬3 ≤ p.length := by omega
  have h3 : p.length ≠ 3 := by omega
  have h7 : p.length ≠ 7 := by omega
  simp [classify, h, h1, h3, h7]

/-- No longer packet takes rule 5: every other rule answers another row. -/
theorem length_lt_of_classify {p : List Byte} {f : Option Byte} (h : classify p = .undersized f) : p.length < 3 := by
  unfold classify at h
  split_ifs at h with _ _ _ _ hshort
  exact hshort

/-- An undersized packet ends the operation in every mode (R139, R154, R181). -/
theorem exec_undersized (f : Option Byte) (s : State) :
    exec (.undersized f) s = .next (ended .undersized 0xFC s) :=
  congrArg _ (terminal_of_not_success rfl (by decide) codeUndersized s)

theorem exec_classify_of_length_lt {p : List Byte} (h : p.length < 3) (s : State) :
    exec (classify p) s = .next (ended .undersized 0xFC s) := by
  rw [classify_of_length_lt h, exec_undersized]

/-- Settles O25: the two packets are shorter than three bytes, and rule 5 takes exactly those. -/
theorem shortPacketsAreUndersized : Obligations.ShortPacketsAreUndersized := by
  refine ⟨fun s b => ⟨?bare, ?oneByte⟩, fun p => ⟨?long, ?short⟩⟩
  case bare => exact exec_classify_of_length_lt (by simp) s
  case oneByte => exact exec_classify_of_length_lt (by simp) s
  case long => exact fun ⟨_, hf⟩ => length_lt_of_classify hf
  case short => exact fun hlen => ⟨_, classify_of_length_lt hlen⟩

/-! ## Rule 7 (R156) -/

/-- The packet `88 30 n b` takes none of the rules before rule 7, whatever its last two bytes. -/
theorem classify_enumeration (n b : Byte) : classify [0x88, 0x30, n, b] = .addrEnumReply n := by
  have hhi : hiNib 0x30#8 = 3#4 := rfl
  simp [classify, hhi, bcastHdr]

/-- Rule 7 takes four bytes that begin with `88 30`, and nothing else. -/
theorem classify_addrEnumReply_inv {p : List Byte} {n : Byte} (h : classify p = .addrEnumReply n) :
    ∃ b, p = [0x88, 0x30, n, b] := by
  unfold classify at h
  split_ifs at h with _ _ _ _ _ _ hrule
  obtain ⟨hlen, hheader, htype⟩ := hrule
  obtain ⟨a, b, c, d, rfl⟩ := List.length_eq_four.mp hlen
  obtain ⟨rfl, rfl⟩ : a = 0x88 ∧ b = 0x30 := ⟨hheader, htype⟩
  cases h
  exact ⟨d, rfl⟩

/-- An enumeration reply ends every operation; the post-check of an INQ alone replaces its code (R181, R184, R233). -/
theorem terminal_addrEnum (s : State) :
    terminal .addrEnum codeSuccess s = ended .addrEnum (if s.mode = .inq then 0xFA else 0x00) s := by
  rw [terminal_finishes (k := .addrEnum) codeSuccess nofun]
  cases hmode : s.mode with
  | recv | wait | send => simp [postCheck, hmode, finish_latch, codeSuccess]
  | inq => simp [postCheck, postInq, inqUnexpected, hmode, codeUnexpected, ← finish_latch, latch]
  | assign => simp [postCheck, postAssign, assignUnexpected, hmode, finish_latch, codeSuccess]

/-- A count of 1 to 7 is recorded whatever the mode (R44, R156). -/
theorem exec_addrEnumReply_of_count {n : Byte} (hlo : 2 ≤ n.toNat) (hhi : n.toNat ≤ 8) (s : State) :
    exec (.addrEnumReply n) s =
      .next (ended .addrEnum (if s.mode = .inq then 0xFA else 0x00)
        { s with camcnt := BitVec.ofNat 3 (n.toNat - 1) }) :=
  (if_pos ⟨hlo, hhi⟩).trans (congrArg _ (terminal_addrEnum _))

/-- Any other count is UNKNOWN, and the count register keeps its value (R156). -/
theorem exec_addrEnumReply_of_no_count {n : Byte} (h : n.toNat < 2 ∨ 8 < n.toNat) (s : State) :
    exec (.addrEnumReply n) s = .next (ended .unknown 0xFB s) := by
  have hcount : ¬((0x02 : Byte) ≤ n ∧ n ≤ 0x08) := by
    rintro ⟨hlo, hhi⟩
    have hlo : 2 ≤ n.toNat := hlo
    have hhi : n.toNat ≤ 8 := hhi
    omega
  exact (if_neg hcount).trans (congrArg _ (terminal_of_not_success rfl (by decide) codeUnknown s))

/-- Settles O24: the packet takes rule 7, whose two outcomes are the lemmas above; the inversion of rule 7 excludes
every other packet. -/
theorem enumerationReplyRecordsTheCount : Obligations.EnumerationReplyRecordsTheCount := by
  refine ⟨fun s n => ?_, fun p n => classify_addrEnumReply_inv⟩
  rw [classify_enumeration]
  exact ⟨fun hlo hhi => exec_addrEnumReply_of_count hlo hhi s, fun hcount => exec_addrEnumReply_of_no_count hcount s⟩

/-! ## The return of a handler (R160, R278) -/

theorem startFrame_eq_framing (s : State) : startFrame s = framing s := rfl

theorem handlerReturned_of_waiting {s : State} (h : s.phase = .hdw) : handlerReturned s = startFrame s := if_pos h

/-- Outside HDW the return is not accepted (R282). -/
theorem handlerReturned_of_not_waiting {s : State} (h : s.phase ≠ .hdw) : handlerReturned s = s := if_neg h

/-- With no sample of the reset pin to come, the pin is low (R41). -/
theorem resetSampled_of_silent {s : State} (h : s.rst = .silent) : resetSampled s = false := by
  simp [resetSampled, h]

/-- With no sample of the reset pin to come, taking one changes nothing. -/
theorem dropSample_of_silent {s : State} (h : s.rst = .silent) : dropSample s = s := by
  rw [dropSample, h, Feed.rest_silent, ← h]

/-- In HDW, with neither a Reset nor a handler's return to come, the block is offered nothing (R160; log 4, log 6). -/
theorem nextEvent_of_no_return {s : State} (hphase : s.phase = .hdw) (hrst : s.rst = .silent)
    (hreturns : s.handlerReturns = .silent) : nextEvent s = none := by
  simp [nextEvent, resetSampled_of_silent hrst, hphase, hreturns]

/-- Settles O30: the event answers `handlerReturned`, which tests the phase; with nothing offered the step only takes
the sample of the reset pin, and there is none to take. -/
theorem handlerReturnFramesTheNextPacket : Obligations.HandlerReturnFramesTheNextPacket := by
  refine fun s => ⟨?returned, ?ignored, ?waits⟩
  case returned =>
    intro hphase
    rw [onEvent_handlerReturn, handlerReturned_of_waiting hphase, startFrame_eq_framing]
  case ignored =>
    intro hphase
    rw [onEvent_handlerReturn, handlerReturned_of_not_waiting hphase]
  case waits =>
    intro hphase hlegal hrst hreturns
    rw [step_waits hlegal (nextEvent_of_no_return hphase hrst hreturns), dropSample_of_silent hrst]

end Sys2Proof.Proofs
end

section
/-! The exchanges (spec/42_handshake.md R187, R190, R191; spec/45_control.md R230): from an accepted request through a
write answered whole to the start of the handshake, whose end the operation reports, and the statements O45, O58 and
O59. -/

namespace Sys2Proof.Proofs

open Sys2Proof.Config Sys2Proof.Machine

/-! ## The write (R190 to R197, R230) -/

/-- The state in which an accepted request builds its packet: the request taken from its port, the operation's mode and
the shape it ends with latched (R190, R191, R230). -/
def requested (mode : Mode) (sh : Shape) (s : State) : State :=
  { s with requests := s.requests.rest, mode := mode, shapeR := sh }

/-- With no Reset sampled, a step in IDLE runs the operation the presented request names (R36, R141). -/
theorem step_hostReq {s : State} {r : ReqSignals} (hlegal : s.cfg.legal) (hphase : s.phase = .idle)
    (hrst : s.rst = .silent) (hr : s.requests.head? = some r) :
    step s = exec (decodeReq r) { s with requests := s.requests.rest } := by
  have hnext : nextEvent s = some (.hostReq r, { s with requests := s.requests.rest }) := by
    simp [nextEvent, resetSampled, dropSample, hrst, hphase, hr]
  rw [step_event hlegal hnext, onEvent_hostReq]

/-- With no Reset sampled, a step in TXW accepts the answer to the write (R39, R141). -/
theorem step_txRsp {s : State} {w : Int} (hlegal : s.cfg.legal) (hphase : s.phase = .txw) (hrst : s.rst = .silent)
    (hw : s.txAnswers.head? = some w) :
    step s = .next (writeAnswered w { s with txAnswers := s.txAnswers.rest }) := by
  have hnext : nextEvent s = some (.txRsp w, { s with txAnswers := s.txAnswers.rest }) := by
    simp [nextEvent, resetSampled, dropSample, hrst, hphase, hw]
  rw [step_event hlegal hnext, onEvent_txRsp]

/-- A count of at least the packet's length begins the handshake (R197). -/
theorem writeAnswered_whole {w : Int} {s : State} (hphase : s.phase = .txw) (hw : (s.tlen : Int) ≤ w) :
    writeAnswered w s = startFrame s := by
  rw [writeAnswered, if_pos hphase, if_neg (not_lt.mpr hw)]

/-- The state in which the handshake of a written packet begins: the packet in the transmit buffer, the count of the
write taken from its port (R195, R197). -/
def handshaking (mode : Mode) (sh : Shape) (addr : Byte) (p : List Byte) (s : State) : State :=
  startFrame { issueWrite (buildPacket addr p (requested mode sh s)) with txAnswers := s.txAnswers.rest }

/-- A packet that is written whole takes two steps, the request and the answer to the write. -/
theorem run_write {s : State} {mode : Mode} {sh : Shape} {addr : Byte} {p : List Byte} {w : Int} (hlegal : s.cfg.legal)
    (hrst : s.rst = .silent) (hrequest : step s = buildAndWrite addr p (requested mode sh s))
    (hfits : p.length + 2 ≤ s.cfg.maxLen) (hcount : s.txAnswers.head? = some w) (hwhole : (p.length : Int) + 2 ≤ w) :
    Host.Core.run Sys2Proof.core 2 s = .next (handshaking mode sh addr p s) := by
  let u := issueWrite (buildPacket addr p (requested mode sh s))
  have hissued : step s = .next u := hrequest.trans (buildAndWrite_fits addr p _ hfits)
  have hanswers : u.txAnswers = s.txAnswers := by simp [u, requested]
  have hanswered : step u = .next (handshaking mode sh addr p s) := by
    rw [step_txRsp (s := u) (w := w) (by simpa [u, requested] using hlegal) rfl (by simpa [u, requested] using hrst)
      (by rw [hanswers, hcount]), hanswers]
    exact congrArg _ (writeAnswered_whole rfl (by simpa [u] using hwhole))
  exact (run_succ 1 hissued).trans ((run_one u).trans hanswered)

/-- After the write the block is at the start of a packet (R131, R197). -/
theorem handshaking_packetStart {s : State} {mode : Mode} {sh : Shape} {addr : Byte} {p : List Byte}
    (hlegal : s.cfg.legal) (hbuffers : BuffersWf s) (hrst : s.rst = .silent) (hfits : p.length + 2 ≤ s.cfg.maxLen) :
    PacketStart (handshaking mode sh addr p s) where
  legal := by simpa [handshaking, requested] using hlegal
  buffers := by
    have hrequested : BuffersWf (requested mode sh s) := hbuffers.of_eq rfl rfl rfl rfl rfl
    have hwritten := buildAndWrite_buffersWf hrequested (buildAndWrite_fits addr p _ hfits)
    exact startFrame_buffersWf (hwritten.of_eq rfl rfl rfl rfl rfl)
  reading := rfl
  empty := rfl
  noReset := by simpa [handshaking, requested] using hrst

/-- What the handshake reports of the state in which it began, the operation reports of the state in which it was
requested: the write changes no register the report speaks of, and delivers no push event. -/
theorem reported_of_handshaking {s t : State} {mode : Mode} {sh : Shape} {addr : Byte} {p : List Byte}
    {e : HandshakeEnd} (h : HandshakeReported (handshaking mode sh addr p s) mode sh e t) :
    HandshakeReported s mode sh e t := by
  have hval0 : (handshaking mode sh addr p s).val0 = s.val0 := by simp [handshaking, requested]
  have hval1 : (handshaking mode sh addr p s).val1 = s.val1 := by simp [handshaking, requested]
  have hcamcnt : (handshaking mode sh addr p s).camcnt = s.camcnt := by simp [handshaking, requested]
  have hpushes : (handshaking mode sh addr p s).outputs.filter Output.isPush = s.outputs.filter Output.isPush := by
    simp [handshaking, requested, Output.isPush]
  obtain ⟨idle, kind, result, done, packet, left, count, events, val0, val1⟩ := h
  rw [hcamcnt] at count
  rw [hpushes] at events
  rw [hval0] at val0
  rw [hval1] at val1
  exact ⟨idle, kind, result, done, packet, left, count, events, val0, val1⟩

/-! ## The whole exchange (R187) -/

/-- An operation whose request builds and writes a packet, and whose packet is written whole, ends as the handshake of
the transport's answers, the packet still in the transmit buffer. -/
theorem run_exchange {s : State} {mode : Mode} {sh : Shape} {addr : Byte} {p : List Byte} {w : Int} {fuel : Nat}
    {e : HandshakeEnd} (hinv : Inv s) (hrst : s.rst = .silent)
    (hrequest : step s = buildAndWrite addr p (requested mode sh s)) (hcount : s.txAnswers.head? = some w)
    (hfits : p.length + 2 ≤ s.cfg.maxLen) (hwhole : (p.length : Int) + 2 ≤ w)
    (h : handshakeFn s.cfg mode s.irEn s.netEn fuel s.rxStream [] = some e)
    (hreturns : s.handlerReturns.enough e.events.length) :
    ∃ n t, Host.Core.run Sys2Proof.core n s = .next t ∧ HandshakeReported s mode sh e t ∧
      t.tbuf.take t.tlen = encodePacket addr p := by
  let u := handshaking mode sh addr p s
  have hwrite := run_write hinv.legal hrst hrequest hfits hcount hwhole
  have hstart : PacketStart u := handshaking_packetStart hinv.legal hinv.buffers hrst hfits
  have hmode : u.mode = mode := by simp [u, handshaking, requested]
  have hshape : u.shapeR = sh := by simp [u, handshaking, requested]
  have hbegin : handshakeFn u.cfg u.mode u.irEn u.netEn fuel u.rxStream [] = some e := by
    simpa [u, handshaking, requested] using h
  have hoffered : u.handlerReturns.enough e.events.length := by simpa [u, handshaking, requested] using hreturns
  obtain ⟨n, t, hrun, hreported, htbuf, htlen⟩ := run_handshake hstart hbegin hoffered
  rw [hmode, hshape] at hreported
  have hpacket : u.tbuf.take u.tlen = encodePacket addr p :=
    buildPacket_packet addr p (requested mode sh s) (hfits.trans_eq hinv.buffers.tbuf_length.symm)
  exact ⟨2 + n, t, (run_add n hwrite).trans hrun, reported_of_handshaking hreported, by rw [htbuf, htlen, hpacket]⟩

/-- Settles O45: request code 3 is SEND, which keeps the latched shape, and `run_exchange` is its exchange. -/
theorem sendExchangeEndsAsItsHandshake : Obligations.SendExchangeEndsAsItsHandshake := by
  intro s r w fuel e hinv hphase hrst hr hop hcount hfits hwhole h hreturns
  have hsend : decodeReq r = .send r.addr r.items := by simp [decodeReq, hop]
  have hrequest : step s = buildAndWrite r.addr (expand r.items) (requested .send s.shapeR s) := by
    rw [step_hostReq hinv.legal hphase hrst hr, hsend]
    exact whenIdle_idle _ _ hphase
  exact run_exchange hinv hrst hrequest hcount hfits hwhole h hreturns

/-- Settles O58: request code 4 is INQ, which latches the requested shape, and `run_exchange` is its exchange. -/
theorem inqExchangeEndsWithItsPostCheck : Obligations.InqExchangeEndsWithItsPostCheck := by
  intro s r w fuel e hinv hphase hrst hr hop hcount hfits hwhole h hreturns
  have hinq : decodeReq r = .inq r.addr (shapeOfCode r.shape) r.items := by simp [decodeReq, hop]
  have hrequest : step s = buildAndWrite r.addr (expand r.items) (requested .inq (shapeOfCode r.shape) s) := by
    rw [step_hostReq hinv.legal hphase hrst hr, hinq]
    exact whenIdle_idle _ _ hphase
  exact run_exchange hinv hrst hrequest hcount hfits hwhole h hreturns

/-- Settles O59: request code 6 is ASSIGN, whose packet is the parameter payload to the broadcast address, and
`run_exchange` is its exchange. -/
theorem assignExchangeEndsWithItsPostCheck : Obligations.AssignExchangeEndsWithItsPostCheck := by
  intro s r w fuel e hinv hphase hrst hr hop hcount hfits hwhole h hreturns
  have hassign : decodeReq r = .assign := by simp [decodeReq, hop]
  have hrequest : step s = buildAndWrite addrBcast s.cfg.addrsetPayload (requested .assign s.shapeR s) := by
    rw [step_hostReq hinv.legal hphase hrst hr, hassign]
    exact whenIdle_idle _ _ hphase
  exact run_exchange hinv hrst hrequest hcount hfits hwhole h hreturns

end Sys2Proof.Proofs
end

section
/-! The hangs of an operation (spec/42_handshake.md R183; spec/60_exceptions.md R278): waiting for an answer that never
comes, packets that end nothing without end, and the statement O57. -/

namespace Sys2Proof.Proofs

open Sys2Proof.Config Sys2Proof.Machine

/-! ## Waiting (R278; log 6) -/

/-- In RXW, with neither a Reset nor an answer to come, the block is offered nothing. -/
theorem nextEvent_of_no_answer {s : State} (hphase : s.phase = .rxw) (hrst : s.rst = .silent)
    (hstream : s.rxStream = .silent) : nextEvent s = none := by
  simp [nextEvent, resetSampled_of_silent hrst, hphase, hstream]

/-- In TXW, with neither a Reset nor a count to come, the block is offered nothing. -/
theorem nextEvent_of_no_count {s : State} (hphase : s.phase = .txw) (hrst : s.rst = .silent)
    (hanswers : s.txAnswers = .silent) : nextEvent s = none := by
  simp [nextEvent, resetSampled_of_silent hrst, hphase, hanswers]

/-- A block that is offered nothing, and no Reset, stays as it is for any number of steps. -/
theorem run_of_nextEvent_none {s : State} (hlegal : s.cfg.legal) (hrst : s.rst = .silent) (hnext : nextEvent s = none)
    (n : Nat) : Host.Core.run Sys2Proof.core n s = .next s := by
  have hstep : step s = .next s := by rw [step_waits hlegal hnext, dropSample_of_silent hrst]
  induction n with
  | zero => exact run_zero s
  | succ n ih => exact (run_succ n hstep).trans ih

/-! ## Packets that end nothing (R151 to R153, R181) -/

theorem classify_ack (h : Byte) (k : Nibble) : classify [h, joinNib 4#4 k, term] = .ack h k := by
  simp [classify]

theorem classify_pushNet (h : Byte) : classify [h, 0x38, term] = .pushNet h := by
  have hhi : hiNib 0x38#8 = 3#4 := rfl
  simp [classify, hhi]

theorem classify_pushIr (h i k : Byte) : classify [h, 0x07, 0x7D, 0x02, i, k, term] = .pushIr h i k := by
  have hhi : hiNib 0x07#8 = 0#4 := rfl
  simp [classify, hhi]

/-- The terminator is the last byte of a packet that ends no operation, and no other byte of it (R90). -/
theorem terminated_of_absorbed {mode : Mode} {p : List Byte} (h : Absorbed mode p) :
    p.getLast? = some term ∧ term ∉ p.dropLast := by
  rcases h with ⟨-, h, k, hh, rfl⟩ | ⟨h, hh, rfl⟩ | ⟨h, i, k, hh, hi, hk, rfl⟩
  · have hack : (4#4 ++ k : Byte) ≠ 0xFF := joinNib_ne_term 4#4 k (by decide)
    exact ⟨rfl, by simpa [term, eq_comm] using And.intro hh hack⟩
  · exact ⟨rfl, by simpa [term, eq_comm] using hh⟩
  · exact ⟨rfl, by simpa [term, eq_comm] using And.intro hh (And.intro hi hk)⟩

/-- The turn of the handshake loop by such a packet goes on, with an event to deliver only if a handler is
registered. -/
theorem loopTurn_of_absorbed {mode : Mode} {p : List Byte} (h : Absorbed mode p) (prm : Params) (ir net : Bool) :
    ∃ event, loopTurn prm mode ir net (classify p) = some (.again event) ∧
      (event ≠ none → ir = true ∨ net = true) := by
  rcases h with ⟨hmode, h, k, -, rfl⟩ | ⟨h, -, rfl⟩ | ⟨h, i, k, -, -, -, rfl⟩
  · exact ⟨none, (congrArg _ (classify_ack h k)).trans (by simp [loopTurn, hmode]), by simp⟩
  · refine ⟨_, congrArg _ (classify_pushNet h), ?_⟩
    cases net <;> simp
  · refine ⟨_, congrArg _ (classify_pushIr h i k), ?_⟩
    cases ir <;> simp

/-! ## A stream without end (R183; log 29) -/

/-- The feed offers the bytes before it begins its pattern again: they are left of what is offered once, or they are
the whole pattern. -/
def Offers (bytes : List Byte) (f : Feed RxAnswer) : Prop :=
  f.once = bytes.map .byte ∨ f.once = [] ∧ f.forever = bytes.map .byte

/-- With no byte left, the pattern begins again. -/
theorem Offers.begin_again {bytes : List Byte} {f : Feed RxAnswer} (h : Offers [] f)
    (hpattern : f.forever = bytes.map .byte) : Offers bytes f :=
  .inr ⟨h.elim id And.left, hpattern⟩

theorem Offers.head? {b : Byte} {bytes : List Byte} {f : Feed RxAnswer} (h : Offers (b :: bytes) f) :
    f.head? = some (.byte b) := by
  rcases h with h | ⟨honce, hforever⟩
  · simp [Feed.head?, h]
  · simp [Feed.head?, honce, hforever]

theorem Offers.rest {b : Byte} {bytes : List Byte} {f : Feed RxAnswer} (h : Offers (b :: bytes) f) :
    Offers bytes f.rest := by
  rcases h with h | ⟨honce, hforever⟩
  · exact .inl (by simp [Feed.rest, h])
  · exact .inl (by simp [Feed.rest, honce, hforever])

/-! ## What the steps of an endless handshake keep -/

/-- The operation, the handlers, the values and the patterns of the ports are as they were. -/
structure Kept (s t : State) : Prop where
  cfg : t.cfg = s.cfg
  mode : t.mode = s.mode
  irEn : t.irEn = s.irEn
  netEn : t.netEn = s.netEn
  camcnt : t.camcnt = s.camcnt
  val0 : t.val0 = s.val0
  val1 : t.val1 = s.val1
  rst : t.rst = s.rst
  stream : t.rxStream.forever = s.rxStream.forever
  returns : t.handlerReturns.forever = s.handlerReturns.forever

theorem Kept.refl (s : State) : Kept s s := by constructor <;> rfl

theorem Kept.trans {s t u : State} (h : Kept s t) (k : Kept t u) : Kept s u where
  cfg := k.cfg.trans h.cfg
  mode := k.mode.trans h.mode
  irEn := k.irEn.trans h.irEn
  netEn := k.netEn.trans h.netEn
  camcnt := k.camcnt.trans h.camcnt
  val0 := k.val0.trans h.val0
  val1 := k.val1.trans h.val1
  rst := k.rst.trans h.rst
  stream := k.stream.trans h.stream
  returns := k.returns.trans h.returns

theorem kept_emit (o : Output) (s : State) : Kept s (emit o s) := by constructor <;> rfl

theorem kept_startFrame (s : State) : Kept s (startFrame s) := by constructor <;> rfl

theorem kept_latch (k : Kind) (c : Byte) (s : State) : Kept s (latch k c s) := by constructor <;> rfl

theorem kept_delivered (o : Output) (s : State) : Kept s (delivered o s) := by constructor <;> rfl

/-- Taking an answer and storing its byte leaves the pattern of the stream. -/
theorem kept_storeByte_answered (b : Byte) (s : State) : Kept s (storeByte b (answered s)) := by
  constructor <;> simp [answered]

/-- Taking a handler's return leaves the pattern of the returns. -/
theorem kept_returned (s : State) : Kept s { s with handlerReturns := s.handlerReturns.rest } := by
  constructor <;> simp

/-! ## The place within an endless handshake -/

section
variable {packets : List (List Byte)} {s t : State}

/-- No Reset is to come, the packets end nothing and fit the buffer, the stream offers them over and over, and every
handler returns. -/
structure Endless (packets : List (List Byte)) (s : State) : Prop where
  legal : s.cfg.legal
  noReset : s.rst = .silent
  nonempty : packets ≠ []
  absorbed : ∀ p ∈ packets, Absorbed s.mode p ∧ p.length ≤ s.cfg.maxLen
  pattern : s.rxStream.forever = packets.flatten.map .byte
  returns : s.irEn = true ∨ s.netEn = true → s.handlerReturns.forever ≠ []

theorem Endless.of_kept (h : Endless packets s) (k : Kept s t) : Endless packets t where
  legal := k.cfg ▸ h.legal
  noReset := k.rst.trans h.noReset
  nonempty := h.nonempty
  absorbed := by rw [k.mode, k.cfg]; exact h.absorbed
  pattern := k.stream.trans h.pattern
  returns := by rw [k.irEn, k.netEn, k.returns]; exact h.returns

/-- A byte is awaited: what is stored is the beginning of one of the packets, and the stream offers the rest of it and
some of the packets after it. -/
def WithinPacket (packets : List (List Byte)) (s : State) : Prop :=
  s.phase = .rxw ∧ ∃ b bytes later, rxPacket s ++ b :: bytes ∈ packets ∧ later ⊆ packets ∧
    Offers (b :: bytes ++ later.flatten) s.rxStream

/-- The return of a registered handler is awaited, and the stream offers some of the packets. -/
def InHandler (packets : List (List Byte)) (s : State) : Prop :=
  s.phase = .hdw ∧ (s.irEn = true ∨ s.netEn = true) ∧ ∃ later, later ⊆ packets ∧ Offers later.flatten s.rxStream

/-- The block is somewhere in an endless handshake: the invariant of its steps. -/
structure Looping (packets : List (List Byte)) (s : State) : Prop where
  endless : Endless packets s
  buffers : BuffersWf s
  place : WithinPacket packets s ∨ InHandler packets s

theorem Looping.busy (h : Looping packets s) : busy s = true := by
  rcases h.place with ⟨hphase, -⟩ | ⟨hphase, -⟩ <;> simp [Machine.busy, hphase]

/-- The start of a packet, with some of the packets offered, is in the handshake: the next of them begins, or with none
left the first of the pattern. -/
theorem looping_of_start (hs : Endless packets s) (hb : BuffersWf s) (hphase : s.phase = .rxw) (hrlen : s.rlen = 0)
    {later : List (List Byte)} (hlater : later ⊆ packets) (hoffers : Offers later.flatten s.rxStream) :
    Looping packets s := by
  have hnext : ∃ p more, p ∈ packets ∧ more ⊆ packets ∧ Offers (p ++ more.flatten) s.rxStream := by
    cases later with
    | cons p more => exact ⟨p, more, hlater (by simp), fun q hq => hlater (List.mem_cons_of_mem p hq), hoffers⟩
    | nil =>
      obtain ⟨p, more, hpackets⟩ := List.exists_cons_of_ne_nil hs.nonempty
      refine ⟨p, more, by simp [hpackets], by simp [hpackets], hoffers.begin_again ?_⟩
      rw [hs.pattern, hpackets, List.flatten_cons]
  obtain ⟨p, more, hp, hmore, hoffers⟩ := hnext
  have hempty : rxPacket s = [] := by rw [rxPacket, hrlen, List.take_zero]
  cases p with
  | nil => exact nomatch (terminated_of_absorbed (hs.absorbed _ hp).1).1
  | cons b bytes => exact ⟨hs, hb, .inl ⟨hphase, b, bytes, more, by rwa [hempty], hmore, hoffers⟩⟩

/-- Starting a frame with some of the packets offered stays in the handshake (R131). -/
theorem looping_startFrame (hs : Endless packets s) (hb : BuffersWf s) {later : List (List Byte)}
    (hlater : later ⊆ packets) (hoffers : Offers later.flatten s.rxStream) : Looping packets (startFrame s) :=
  looping_of_start (hs.of_kept (kept_startFrame s)) (startFrame_buffersWf hb) rfl rfl hlater hoffers

/-! ## One step of an endless handshake -/

/-- The state goes on in the handshake after `s`, with one output event more. -/
structure LoopsOn (packets : List (List Byte)) (s t : State) : Prop where
  looping : Looping packets t
  kept : Kept s t
  emitted : t.outputs.length = s.outputs.length + 1

/-- The last byte of a packet stored, its turn of the loop goes on: with the next packet, or with its handler. -/
theorem exec_absorbed (hs : Endless packets s) (hb : BuffersWf s) (hp : rxPacket s ∈ packets)
    {later : List (List Byte)} (hlater : later ⊆ packets) (hoffers : Offers later.flatten s.rxStream) :
    ∃ t, exec (classify (rxPacket s)) s = .next t ∧ LoopsOn packets s t := by
  obtain ⟨event, hturn, hevent⟩ := loopTurn_of_absorbed (hs.absorbed _ hp).1 s.cfg s.irEn s.netEn
  cases event with
  | none =>
    rcases exec_of_again_none hturn with hexec | hexec
    · exact ⟨_, hexec, looping_startFrame hs hb hlater hoffers, kept_startFrame s, by simp⟩
    · have hlatch : Kept s (latch .ack codeAcknowledge s) := kept_latch _ _ s
      exact ⟨_, hexec, looping_startFrame (hs.of_kept hlatch) (hb.of_eq rfl rfl rfl rfl rfl) hlater hoffers,
        hlatch.trans (kept_startFrame _), by simp⟩
  | some o =>
    have hdelivered : Kept s (delivered o s) := kept_delivered o s
    refine ⟨_, (exec_of_again_some hturn).1, ⟨hs.of_kept hdelivered, hb.of_eq rfl rfl rfl rfl rfl, .inr ?_⟩,
      hdelivered, by simp [delivered]⟩
    exact ⟨rfl, hevent (by simp), later, hlater, hoffers⟩

/-- There is room for the rest of a packet that is begun (R62, R84). -/
theorem room_for_rest (hs : Endless packets s) (hb : BuffersWf s) {more : List Byte} (hp : rxPacket s ++ more ∈ packets) :
    s.rlen + more.length ≤ s.cfg.maxLen := by
  have hlen : (rxPacket s).length = s.rlen := rxPacket_length (hb.rlen_le.trans_eq hb.rbuf_length.symm)
  simpa [hlen] using (hs.absorbed _ hp).2

/-- A byte of a packet is stored; the last one completes it, any other asks for the next. -/
theorem step_withinPacket (hs : Endless packets s) (hb : BuffersWf s) (h : WithinPacket packets s) :
    ∃ t, step s = .next t ∧ LoopsOn packets s t := by
  obtain ⟨hphase, b, bytes, later, hp, hlater, hoffers⟩ := h
  let u := storeByte b (answered s)
  have hroom : s.rlen + (bytes.length + 1) ≤ s.cfg.maxLen := room_for_rest hs hb hp
  have hin : s.rlen < s.cfg.maxLen := by omega
  have hkept : Kept s u := kept_storeByte_answered b s
  have hu : Endless packets u := hs.of_kept hkept
  have hbu : BuffersWf u := storeByte_buffersWf b (hb.of_eq rfl rfl rfl rfl rfl) hin
  have hpacket : rxPacket u = rxPacket s ++ [b] :=
    rxPacket_storeByte b (s := answered s) (hin.trans_eq hb.rbuf_length.symm)
  have hrest : Offers (bytes ++ later.flatten) u.rxStream := Offers.rest hoffers
  have hstep := (step_rxRsp hs.legal hphase hs.noReset (Offers.head? hoffers)).trans
    (onEvent_byte b (answered s) hphase hin)
  obtain ⟨hlast, hinside⟩ := terminated_of_absorbed (hs.absorbed _ hp).1
  cases bytes with
  | nil =>
    obtain rfl : b = term := by simpa using hlast
    obtain ⟨t, hexec, hlooping, hafter, hemitted⟩ := exec_absorbed hu hbu (hpacket ▸ hp) hlater hrest
    exact ⟨t, hstep.trans ((if_pos rfl).trans hexec), hlooping, hkept.trans hafter, hemitted⟩
  | cons c bytes =>
    have hmem : b ∈ (rxPacket s ++ b :: c :: bytes).dropLast := by simp
    have hne : b ≠ term := fun hbt => hinside (hbt ▸ hmem)
    have hnotLast : (answered s).rlen + 1 ≠ (answered s).cfg.maxLen := by
      show s.rlen + 1 ≠ s.cfg.maxLen
      rw [List.length_cons] at hroom
      omega
    rw [if_neg hne, if_neg hnotLast] at hstep
    have hread : Kept u (emit .rxReq u) := kept_emit .rxReq u
    refine ⟨_, hstep, ⟨hu.of_kept hread, emit_buffersWf .rxReq hbu, .inl ?_⟩, hkept.trans hread, by simp [answered]⟩
    have hwhole : rxPacket u ++ c :: bytes ∈ packets := by rwa [hpacket, List.append_assoc]
    exact ⟨hphase, c, bytes, later, hwhole, hlater, hrest⟩

/-- The handler returns, and the next packet begins. -/
theorem step_inHandler (hs : Endless packets s) (hb : BuffersWf s) (h : InHandler packets s) :
    ∃ t, step s = .next t ∧ LoopsOn packets s t := by
  obtain ⟨hphase, hregistered, later, hlater, hoffers⟩ := h
  obtain ⟨r, hr⟩ := Feed.offers_of_forever s.handlerReturns (hs.returns hregistered)
  have hreturned := kept_returned s
  refine ⟨_, step_handlerReturn hs.legal hphase hs.noReset hr, ?_, hreturned.trans (kept_startFrame _), by simp⟩
  exact looping_startFrame (hs.of_kept hreturned) (hb.of_eq rfl rfl rfl rfl rfl) hlater hoffers

/-- Every step of an endless handshake goes on in it. -/
theorem Looping.step (h : Looping packets s) : ∃ t, Machine.step s = .next t ∧ LoopsOn packets s t := by
  rcases h.place with hplace | hplace
  · exact step_withinPacket h.endless h.buffers hplace
  · exact step_inHandler h.endless h.buffers hplace

/-- Any number of steps goes on in an endless handshake, with one output event each. -/
theorem Looping.run (h : Looping packets s) (n : Nat) :
    ∃ t, Host.Core.run Sys2Proof.core n s = .next t ∧ Looping packets t ∧ Kept s t ∧
      t.outputs.length = s.outputs.length + n := by
  induction n generalizing s with
  | zero => exact ⟨s, run_zero s, h, Kept.refl s, rfl⟩
  | succ n ih =>
    obtain ⟨t, hstep, hlooping, hkept, hemitted⟩ := h.step
    obtain ⟨u, hrun, hloops, hlater, hmore⟩ := ih hlooping
    exact ⟨u, (run_succ n hstep).trans hrun, hloops, hkept.trans hlater, by omega⟩

end

/-- Settles O57: a block that is offered nothing stays as it is; from the start of a packet the endless stream gives the
invariant `Looping`, which `Looping.run` carries through any number of steps. -/
theorem operationsHangWithoutATerminalAnswer : Obligations.OperationsHangWithoutATerminalAnswer := by
  refine ⟨fun s hlegal hrst hwaits => run_of_nextEvent_none hlegal hrst ?waits, ?endless⟩
  case waits =>
    rcases hwaits with ⟨hphase, hsilent⟩ | ⟨hphase, hsilent⟩ | ⟨hphase, hsilent⟩
    · exact nextEvent_of_no_answer hphase hrst hsilent
    · exact nextEvent_of_no_count hphase hrst hsilent
    · exact nextEvent_of_no_return hphase hrst hsilent
  case endless =>
    intro s packets hlegal hbuffers hphase hrlen hrst hsome habsorbed hstream hreturns n
    have hpattern : s.rxStream.forever = packets.flatten.map .byte := by rw [hstream]
    have hendless : Endless packets s := ⟨hlegal, hrst, hsome, habsorbed, hpattern, hreturns⟩
    have hoffers : Offers [] s.rxStream := .inl (by rw [hstream]; rfl)
    have hlooping := looping_of_start hendless hbuffers hphase hrlen (List.nil_subset _) hoffers
    obtain ⟨t, hrun, hloops, hkept, hemitted⟩ := hlooping.run n
    exact ⟨t, hrun, hloops.busy, hkept.mode, hemitted, hkept.camcnt, hkept.val0, hkept.val1⟩

end Sys2Proof.Proofs
end

section
/-! The encoder (spec/43_encoder.md R190 to R199): the packet a request writes, the requests that are refused for their
payload's length, the write that falls short, and the statements O2, O7 and O28. -/

namespace Sys2Proof.Proofs

open Sys2Proof.Config Sys2Proof.Machine

/-! ## The packet written (R192, R194, R195) -/

@[simp] theorem length_encodePacket (addr : Byte) (p : List Byte) : (encodePacket addr p).length = p.length + 2 := by
  simp [encodePacket]

/-- With room in the transmit buffer, the packet is built at its start and handed over as it stands there. -/
theorem issueWrite_buildPacket (addr : Byte) (p : List Byte) (s : State) (h : p.length + 2 ≤ s.tbuf.length) :
    issueWrite (buildPacket addr p s) = written (encodePacket addr p) s := by
  rw [issueWrite, buildPacket_packet addr p s h, buildPacket_eq addr p s h, ← length_encodePacket addr p]
  rfl

/-- A payload that fits is written as its encoded packet. -/
theorem buildAndWrite_eq_written (addr : Byte) (p : List Byte) {s : State} (hbuf : s.tbuf.length = s.cfg.maxLen)
    (hfits : p.length + 2 ≤ s.cfg.maxLen) : buildAndWrite addr p s = .next (written (encodePacket addr p) s) := by
  rw [buildAndWrite_fits addr p s hfits, issueWrite_buildPacket addr p s (hbuf ▸ hfits)]

/-- SEND in IDLE latches its mode and writes its packet (R190). -/
theorem requestSend_eq_written (addr : Byte) (p : List Byte) {s : State} (hidle : s.phase = .idle)
    (hbuf : s.tbuf.length = s.cfg.maxLen) (hfits : p.length + 2 ≤ s.cfg.maxLen) :
    requestSend addr p s = .next (written (encodePacket addr p) { s with mode := .send }) :=
  (whenIdle_idle s _ hidle).trans (buildAndWrite_eq_written addr p hbuf hfits)

/-- Settles O2: SEND requests the packet of its expanded items, and `encodePacket` is the statement's list of bytes. -/
theorem sendWritesTheEncodedPacket : Obligations.SendWritesTheEncodedPacket :=
  fun _ addr items hidle hbuf hfits => requestSend_eq_written addr (expand items) hidle hbuf hfits

/-! ## Payloads that are too long (R199, R281) -/

section

variable {s : State} (hidle : s.phase = .idle)
include hidle

theorem requestSend_too_long (addr : Byte) {p : List Byte} (h : s.cfg.maxLen < p.length + 2) :
    requestSend addr p s = .refused .payloadTooLong :=
  (whenIdle_idle s _ hidle).trans (buildAndWrite_too_long addr p _ h)

theorem requestInquiry_too_long (addr : Byte) (sh : Shape) {p : List Byte} (h : s.cfg.maxLen < p.length + 2) :
    requestInquiry addr sh p s = .refused .payloadTooLong :=
  (whenIdle_idle s _ hidle).trans (buildAndWrite_too_long addr p _ h)

theorem requestAssign_too_long (h : s.cfg.maxLen < s.cfg.addrsetPayload.length + 2) :
    requestAssign s = .refused .payloadTooLong :=
  (whenIdle_idle s _ hidle).trans (buildAndWrite_too_long addrBcast _ _ h)

end

/-- A literal byte before the items is the first byte of the payload (R98). -/
theorem expand_literal_cons (v : Byte) (items : List Item) : expand (.b v :: items) = v :: expand items := rfl

/-- Settles O7: every form runs one of the three requests with its payload, one byte longer than its operand for the
forms that put a type byte before it, so the bound on the operand is the bound on the payload. -/
theorem overlongPayloadIsRefused : Obligations.OverlongPayloadIsRefused := by
  intro s addr a k sh items p hidle
  refine ⟨fun h => ⟨?send, ?inq⟩, fun h => ⟨?commandPseudo, ?inquiryPseudo⟩, fun h => ?txGeneric,
    fun h => ⟨?command, ?inquiry⟩, fun h => ⟨?assign, ?addressSet⟩, fun h => ⟨?cancel, ?cancelPseudo⟩,
    fun h => ?addrsetPseudo⟩
  case send => exact requestSend_too_long hidle addr h
  case inq => exact requestInquiry_too_long hidle addr sh h
  case commandPseudo => exact requestSend_too_long hidle addr (by simpa [expand_literal_cons] using h)
  case inquiryPseudo => exact requestInquiry_too_long hidle addr sh (by simpa [expand_literal_cons] using h)
  case txGeneric => exact requestSend_too_long hidle (addrOperand a) h
  case command => exact requestSend_too_long hidle (addrOperand a) h
  case inquiry => exact requestInquiry_too_long hidle (addrOperand a) sh h
  case assign => exact requestAssign_too_long hidle h
  case addressSet => exact requestAssign_too_long hidle h
  case cancel => exact requestSend_too_long hidle (addrOperand a) h
  case cancelPseudo => exact requestSend_too_long hidle addr h
  case addrsetPseudo => exact requestSend_too_long hidle addrBcast h

/-! ## The write that falls short (R196) -/

/-- A count below the packet's length ends the operation with WRITE_FAIL, whatever the mode. -/
theorem writeAnswered_short {w : Int} {s : State} (hphase : s.phase = .txw) (hw : w < (s.tlen : Int)) :
    writeAnswered w s = ended .writeFail codeOther s := by
  rw [writeAnswered, if_pos hphase, if_pos hw, finish_latch]

/-- Settles O28: the answer to the write is the whole step, and a short one ends the operation. -/
theorem shortWriteEndsTheOperation : Obligations.ShortWriteEndsTheOperation := by
  intro s w hphase hw
  rw [onEvent_txRsp, writeAnswered_short hphase hw]
  rfl

end Sys2Proof.Proofs
end

section
/-! The exceptions (spec/60_exceptions.md R282): events that come outside the phase that accepts them, and the statement
O10. -/

namespace Sys2Proof.Proofs

open Sys2Proof.Config Sys2Proof.Machine

/-! ## Events out of their phase (R36, R282) -/

/-- No request code is accepted outside IDLE: seven operations test the phase, and code 0 is none in any phase (R36,
R281, R282). -/
theorem exec_decodeReq_of_not_idle (r : ReqSignals) {s : State} (h : s.phase ≠ .idle) :
    exec (decodeReq r) s = .next s := by
  rcases decodeReq_cases r with hop | hop | hop | hop | hop | hop | hop | hop <;> rw [hop]
  pick_goal 8 -- code 0
  · rfl
  all_goals exact whenIdle_busy s _ h

/-- Outside TXW the answer to a write is not accepted (R282). -/
theorem writeAnswered_of_not_writing (w : Int) {s : State} (h : s.phase ≠ .txw) : writeAnswered w s = s := if_neg h

/-- Settles O10: each event by the lemma about what it runs outside its phase; being busy is not being in IDLE. -/
theorem eventsOutOfPhaseChangeNothing : Obligations.EventsOutOfPhaseChangeNothing := by
  refine fun s => ⟨?request, fun a hphase => onEvent_rxRsp_unread a hphase, ?write, ?handler⟩
  case request =>
    intro r hbusy
    rw [onEvent_hostReq, exec_decodeReq_of_not_idle r ((busy_iff s).mp hbusy)]
  case write =>
    intro w hphase
    rw [onEvent_txRsp, writeAnswered_of_not_writing w hphase]
  case handler =>
    intro hphase
    rw [onEvent_handlerReturn, handlerReturned_of_not_waiting hphase]

end Sys2Proof.Proofs
end

section
/-! The encoding (spec/30_encoding.md R90 to R98, R117; spec/41_classifier.md R161): the mask and match map against the
nine rules, the packets that are the encodings of instructions, and the statements O34 to O38. -/

namespace Sys2Proof.Proofs

open Sys2Proof.Config Sys2Proof.Machine

/-! ## The mask and match map (R117, R161) -/

/-- A mask of the high nibble of byte 1 compares that nibble. -/
theorem firstFour_typeNibble (p : List Byte) (n : Nibble) :
    firstFour p &&& 0x00F00000#32 = 0#8 ++ joinNib n 0 ++ 0#8 ++ 0#8 ↔ hiNib (byteAt p 1) = n :=
  (firstFour_mask p 0#8 0xF0#8 0#8 0#8 0#8 (joinNib n 0) 0#8 0#8).trans
    (by simp only [and_noMask, and_hiMask, true_and, and_true])

theorem firstFour_bytesOneToThree (p : List Byte) :
    firstFour p &&& 0x00FFFFFF#32 = 0x00077D02#32 ↔ byteAt p 1 = 0x07 ∧ byteAt p 2 = 0x7D ∧ byteAt p 3 = 0x02 :=
  (firstFour_mask p 0#8 0xFF#8 0xFF#8 0xFF#8 0#8 0x07#8 0x7D#8 0x02#8).trans (by simp [and_allMask])

theorem firstFour_byteOne (p : List Byte) :
    firstFour p &&& 0x00FF0000#32 = 0x00380000#32 ↔ byteAt p 1 = 0x38 :=
  (firstFour_mask p 0#8 0xFF#8 0#8 0#8 0#8 0x38#8 0#8 0#8).trans (by simp [and_allMask])

theorem firstFour_bytesZeroAndOne (p : List Byte) :
    firstFour p &&& 0xFFFF0000#32 = 0x88300000#32 ↔ byteAt p 0 = bcastHdr ∧ byteAt p 1 = 0x30 :=
  (firstFour_mask p 0xFF#8 0xFF#8 0#8 0#8 0x88#8 0x30#8 0#8 0#8).trans (by simp [and_allMask, bcastHdr])

theorem firstFour_byteZero (p : List Byte) :
    firstFour p &&& 0xFF000000#32 = 0x88000000#32 ↔ byteAt p 0 = bcastHdr :=
  (firstFour_mask p 0xFF#8 0#8 0#8 0#8 0x88#8 0#8 0#8 0#8).trans (by simp [and_allMask, bcastHdr])

/-- The first row of the map that takes a packet, its masks read byte by byte. -/
theorem findIdx_rxRows (p : List Byte) :
    rxRows.findIdx (fun r => r.takes p) =
      if 3 ≤ p.length ∧ hiNib (byteAt p 1) = 5#4 then 0
      else if p.length = 3 ∧ hiNib (byteAt p 1) = 4#4 then 1
      else if p.length = 7 ∧ byteAt p 1 = 0x07 ∧ byteAt p 2 = 0x7D ∧ byteAt p 3 = 0x02 then 2
      else if p.length = 3 ∧ byteAt p 1 = 0x38 then 3
      else if p.length < 3 then 4
      else if p.length = 4 ∧ hiNib (byteAt p 1) = 6#4 then 5
      else if p.length = 4 ∧ byteAt p 0 = bcastHdr ∧ byteAt p 1 = 0x30 then 6
      else if 3 ≤ p.length ∧ byteAt p 0 = bcastHdr then 7
      else if 3 ≤ p.length then 8 else 9 := by
  have hreply : firstFour p &&& 0x00F00000#32 = 0x00500000#32 ↔ _ := firstFour_typeNibble p 5#4
  have hack : firstFour p &&& 0x00F00000#32 = 0x00400000#32 ↔ _ := firstFour_typeNibble p 4#4
  have herror : firstFour p &&& 0x00F00000#32 = 0x00600000#32 ↔ _ := firstFour_typeNibble p 6#4
  simp [rxRows, List.findIdx_cons, RxRow.takes, LenCond.holds, firstFour_bytesOneToThree, firstFour_byteOne,
    firstFour_bytesZeroAndOne, firstFour_byteZero, hreply, hack, herror, cond_eq_ite, apply_ite (· + 1)]

/-- The nine rules in order pick the first row of the map that takes the packet. -/
theorem findIdx_rxRows_eq_rxRowOf_classify (p : List Byte) :
    rxRows.findIdx (fun r => r.takes p) = rxRowOf (classify p) := by
  rw [findIdx_rxRows]
  by_cases hshort : p.length < 3
  · have h3 : ¬3 ≤ p.length := Nat.not_le.mpr hshort
    have hne3 : p.length ≠ 3 := by omega
    have hne7 : p.length ≠ 7 := by omega
    simp [classify_of_length_lt hshort, rxRowOf, hshort, h3, hne3, hne7]
  · have hlong : 3 ≤ p.length := Nat.not_lt.mp hshort
    simp only [classify, apply_ite rxRowOf, hshort, hlong, true_and, if_true, if_false]
    rfl

/-- Settles O37: the packet is classified by the nine rules, and they agree with the map on every byte sequence. -/
theorem classificationMapAgreesWithTheRules : Obligations.ClassificationMapAgreesWithTheRules := by
  intro prm p i h
  obtain ⟨q, rfl, -, -, rfl⟩ := decodeRx_inv h
  exact findIdx_rxRows_eq_rxRowOf_classify _

/-- The first rows leave exactly the packets whose classification is a later one. -/
theorem takenBefore_eq_false_iff {n : Nat} (hn : n ≤ rxRows.length) (p : List Byte) :
    takenBefore n p = false ↔ n ≤ rxRowOf (classify p) := by
  have htaken : takenBefore n p = true ↔ (rxRows.take n).findIdx (fun r => r.takes p) < (rxRows.take n).length := by
    rw [List.findIdx_lt_length, takenBefore, List.any_eq_true]
  rw [List.findIdx_take, findIdx_rxRows_eq_rxRowOf_classify, List.length_take_of_le hn] at htaken
  rw [← Bool.not_eq_true, htaken]
  omega

@[simp] theorem packetBody_append_term (q : List Byte) (k : Nat) : packetBody (q ++ [term]) k = q.drop k := by
  simp [packetBody]

/-- Past rule 7 the header alone decides (R157, R158). -/
theorem classify_of_seven_le {hdr : Byte} {rest : List Byte} (h : 7 ≤ rxRowOf (classify (hdr :: rest ++ [term]))) :
    classify (hdr :: rest ++ [term]) = if hdr = bcastHdr then .broadcast rest else .unknown hdr rest := by
  have hbody : packetBody (hdr :: rest ++ [term]) 1 = rest := packetBody_append_term (hdr :: rest) 1
  have hbyte : byteAt (hdr :: rest ++ [term]) 0 = hdr := rfl
  simp only [classify, hbody, hbyte] at h ⊢
  split_ifs at h ⊢ <;> simp [rxRowOf] at h ⊢

theorem classify_broadcast {rest : List Byte} (h : takenBefore 7 (bcastHdr :: (rest ++ [term])) = false) :
    classify (bcastHdr :: rest ++ [term]) = .broadcast rest :=
  (classify_of_seven_le ((takenBefore_eq_false_iff (by decide) _).mp h)).trans (if_pos rfl)

theorem classify_unknown {hdr : Byte} {rest : List Byte} (h : takenBefore 8 (hdr :: (rest ++ [term])) = false) :
    classify (hdr :: rest ++ [term]) = .unknown hdr rest := by
  have hrow : 8 ≤ rxRowOf (classify (hdr :: rest ++ [term])) := (takenBefore_eq_false_iff (by decide) _).mp h
  have hclassify := classify_of_seven_le (Nat.le_of_lt hrow)
  have hhdr : hdr ≠ bcastHdr := by
    intro hhdr
    rw [hclassify, if_pos hhdr] at hrow
    exact Nat.not_succ_le_self 7 hrow
  exact hclassify.trans (if_neg hhdr)

/-! ## Received packets: the bytes before the terminator and the instruction they are read as (R101 to R107) -/

/-- The bytes before the terminator are read as the instruction, row by row. -/
inductive ReadAs : List Byte → Instr → Prop
  | reply (hdr : Byte) (k : Nibble) (payload : List Byte) :
    ReadAs (hdr :: joinNib 5#4 k :: payload) (.reply hdr k payload)
  | ack (hdr : Byte) (k : Nibble) : ReadAs [hdr, joinNib 4#4 k] (.ack hdr k)
  | pushIr (hdr i key : Byte) : ReadAs [hdr, 0x07, 0x7D, 0x02, i, key] (.pushIr hdr i key)
  | pushNet (hdr : Byte) : ReadAs [hdr, 0x38] (.pushNet hdr)
  | undersized (first : Option Byte) : ReadAs first.toList (.undersized first)
  | error (hdr : Byte) (k : Nibble) (code : Byte) : ReadAs [hdr, joinNib 6#4 k, code] (.error hdr k code)
  | addrEnumReply (n : Byte) : ReadAs [bcastHdr, 0x30, n] (.addrEnumReply n)
  | broadcast (rest : List Byte) (h : takenBefore 7 (bcastHdr :: (rest ++ [term])) = false) :
    ReadAs (bcastHdr :: rest) (.broadcast rest)
  | unknown (hdr : Byte) (rest : List Byte) (h : takenBefore 8 (hdr :: (rest ++ [term])) = false) :
    ReadAs (hdr :: rest) (.unknown hdr rest)

/-- What is read as an instruction is its encoding. -/
theorem ReadAs.encode_eq {q : List Byte} {i : Instr} (h : ReadAs q i) (prm : Params) :
    encode prm i = .rx (q ++ [term]) := by cases h <;> rfl

/-- The rules read the bytes so. -/
theorem ReadAs.classify_eq {q : List Byte} {i : Instr} (h : ReadAs q i) : classify (q ++ [term]) = i := by
  cases h with
  | reply hdr k payload =>
    simp only [classify, packetBody_append_term]
    simp
  | ack hdr k => exact classify_ack hdr k
  | pushIr hdr i key => exact classify_pushIr hdr i key
  | pushNet hdr => exact classify_pushNet hdr
  | undersized first => cases first <;> exact classify_of_length_lt (by simp)
  | error hdr k code => simp [classify]
  | addrEnumReply n => exact classify_enumeration n term
  | broadcast rest h => exact classify_broadcast h
  | unknown hdr rest h => exact classify_unknown h

theorem exists_joinNib_of_hiNib {b : Byte} {n : Nibble} (h : hiNib b = n) : ∃ k, b = joinNib n k :=
  ⟨loNib b, by rw [← h, joinNib_hiNib_loNib]⟩

/-- Every sequence of bytes before a terminator is read as something: the rule that takes it gives its form. -/
theorem exists_readAs (q : List Byte) : ∃ i, ReadAs q i := by
  generalize hi : classify (q ++ [term]) = i
  have hrow : rxRowOf (classify (q ++ [term])) = rxRowOf i := by rw [hi]
  unfold classify at hi
  simp only [List.length_append, List.length_singleton] at hi
  split_ifs at hi with hreply hack hpushIr hpushNet hshort herror henum hheader <;> subst hi
  · obtain ⟨hlen, htype⟩ := hreply
    match q, hlen, htype with
    | hdr :: b :: payload, _, htype =>
      obtain ⟨k, rfl⟩ := exists_joinNib_of_hiNib htype
      exact ⟨_, .reply hdr k payload⟩
  · obtain ⟨hlen, htype⟩ := hack
    obtain ⟨hdr, b, rfl⟩ := List.length_eq_two.mp (Nat.succ.inj hlen)
    obtain ⟨k, rfl⟩ := exists_joinNib_of_hiNib htype
    exact ⟨_, .ack hdr k⟩
  · obtain ⟨hlen, h1, h2, h3⟩ := hpushIr
    match q, hlen, h1, h2, h3 with
    | [hdr, _, _, _, i, key], _, rfl, rfl, rfl => exact ⟨_, .pushIr hdr i key⟩
  · obtain ⟨hlen, htype⟩ := hpushNet
    match q, hlen, htype with
    | [hdr, _], _, rfl => exact ⟨_, .pushNet hdr⟩
  · match q, hshort with
    | [], _ => exact ⟨_, .undersized none⟩
    | [b], _ => exact ⟨_, .undersized (some b)⟩
  · obtain ⟨hlen, htype⟩ := herror
    obtain ⟨hdr, b, code, rfl⟩ := List.length_eq_three.mp (Nat.succ.inj hlen)
    obtain ⟨k, rfl⟩ := exists_joinNib_of_hiNib htype
    exact ⟨_, .error hdr k code⟩
  · obtain ⟨hlen, hhdr, htype⟩ := henum
    match q, hlen, hhdr, htype with
    | [_, _, n], _, rfl, rfl => exact ⟨_, .addrEnumReply n⟩
  · match q, hheader, hrow with
    | [], _, _ => exact ⟨_, .undersized none⟩
    | _ :: rest, rfl, hrow => exact ⟨_, .broadcast rest ((takenBefore_eq_false_iff (by decide) _).mpr hrow.ge)⟩
  · match q, hrow with
    | [], _ => exact ⟨_, .undersized none⟩
    | hdr :: rest, hrow => exact ⟨_, .unknown hdr rest ((takenBefore_eq_false_iff (by decide) _).mpr hrow.ge)⟩

/-- It is read as what the rules classify it as. -/
theorem readAs_classify (q : List Byte) : ReadAs q (classify (q ++ [term])) := by
  obtain ⟨i, h⟩ := exists_readAs q
  rwa [h.classify_eq]

@[simp] theorem noTerm_nil : noTerm [] = true := rfl

@[simp] theorem noTerm_cons (b : Byte) (bs : List Byte) : noTerm (b :: bs) = true ↔ b ≠ term ∧ noTerm bs = true := by
  simp [noTerm]

/-- The fixed bytes of the rows are no terminators (R6). -/
theorem fixedBytes_ne_term :
    bcastHdr ≠ term ∧ 0x07#8 ≠ term ∧ 0x7D#8 ≠ term ∧ 0x02#8 ≠ term ∧ 0x38#8 ≠ term ∧ 0x30#8 ≠ term := by decide

/-- Without a terminator among the bytes, and within MAXLEN, the instruction is well formed. -/
theorem ReadAs.wellFormed_of_packet {q : List Byte} {i : Instr} (h : ReadAs q i) {prm : Params}
    (hterm : noTerm q = true) (hlen : q.length + 1 ≤ prm.maxLen) : wellFormed prm i = true := by
  cases h with
  | undersized first => cases first <;> simp_all [wellFormed]
  | ack | pushIr | pushNet | error | addrEnumReply => simp_all [wellFormed]
  | reply | broadcast | unknown =>
    simp_all [wellFormed]
    omega

/-- Settles O35: the bytes before the terminator are read as the instruction, which gives both its encoding and that it
is well formed. -/
theorem encodeInvertsClassification : Obligations.EncodeInvertsClassification := by
  intro prm p i h
  obtain ⟨q, rfl, hterm, hlen, rfl⟩ := decodeRx_inv h
  exact ⟨(readAs_classify q).wellFormed_of_packet hterm hlen, (readAs_classify q).encode_eq prm⟩

/-- The bytes a well-formed instruction is read from are a packet with the terminator (R90). -/
theorem ReadAs.packet {q : List Byte} {i : Instr} (h : ReadAs q i) {prm : Params} (hlegal : prm.legal)
    (hwf : wellFormed prm i = true) : noTerm q = true ∧ q.length + 1 ≤ prm.maxLen := by
  have h3 : 3 ≤ prm.maxLen := hlegal
  cases h with
  | undersized first => cases first <;> simp_all [wellFormed] <;> omega
  | reply | ack | pushIr | pushNet | error | addrEnumReply =>
    simp_all [wellFormed, fixedBytes_ne_term, joinNib_ne_term]
  | broadcast | unknown => simp_all [wellFormed, fixedBytes_ne_term]

/-- A packet that is read as a well-formed instruction decodes to it (R161). -/
theorem ReadAs.decode_encode {q : List Byte} {i : Instr} (h : ReadAs q i) {prm : Params} (hlegal : prm.legal)
    (hwf : wellFormed prm i = true) : decode prm (encode prm i) = .ok i := by
  obtain ⟨hterm, hlen⟩ := h.packet hlegal hwf
  rw [h.encode_eq, decode, decodeRx_packet prm q hterm hlen, h.classify_eq]

/-! ## Transmitted packets (R92 to R96; log 22) -/

section
variable {prm : Params} {sh : BitVec 2} {a : Nibble}

/-- Everything a transmitted packet that decodes can be (R92, R93). -/
theorem decodeTx_inv {p : List Byte} {i : Instr} (h : decodeTx prm sh p = .ok i) :
    ∃ a payload, p = joinNib 8#4 a :: (payload ++ [term]) ∧ payload.length + 2 ≤ prm.maxLen ∧
      i = txFormat prm sh a payload := by
  cases p with
  | nil => cases h
  | cons d rest =>
    simp only [decodeTx] at h
    split_ifs at h with hdest hsome hterm hlong
    obtain ⟨a, rfl⟩ := exists_joinNib_of_hiNib (not_not.mp hdest)
    have hrest : rest.dropLast ++ [term] = rest := List.dropLast_append_getLast? _ (not_not.mp hterm)
    have hlen := congrArg List.length hrest
    simp only [List.length_append, List.length_cons] at hlen hlong
    refine ⟨a, rest.dropLast, by rw [hrest], by omega, ?_⟩
    rw [loNib_joinNib] at h
    exact (Except.ok.inj h).symm

/-! Which payload each format names: the address-set packet first, then by the first byte (R94 to R96). -/

theorem txFormat_addressSet {p : List Byte} (h : isAddressSet prm a p = true) : txFormat prm sh a p = .addressSet := by
  simp [txFormat, h]

theorem txFormat_command {op : List Byte} (h : isAddressSet prm a (typeCmd :: op) = false) :
    txFormat prm sh a (typeCmd :: op) = .command a op := by
  simp [txFormat, h]

theorem txFormat_inquiry {op : List Byte} (h : isAddressSet prm a (typeInq :: op) = false) :
    txFormat prm sh a (typeInq :: op) = .inquiry a (shapeOfCode sh) op := by
  have htype : typeInq ≠ typeCmd := by decide
  simp [txFormat, h, htype]

theorem txFormat_cancel {k : Nibble} (h : isAddressSet prm a [joinNib 2#4 k] = false) :
    txFormat prm sh a [joinNib 2#4 k] = .cancel a k := by
  have hcmd : joinNib 2#4 k ≠ typeCmd := ne_of_apply_ne hiNib (by rw [hiNib_joinNib]; decide)
  have hinq : joinNib 2#4 k ≠ typeInq := ne_of_apply_ne hiNib (by rw [hiNib_joinNib]; decide)
  simp [txFormat, h, hcmd, hinq]

theorem txFormat_plain {p : List Byte} (h : isAddressSet prm a p = false) (hplain : plainPayload p = true) :
    txFormat prm sh a p = .txGeneric a p := by
  cases p with
  | nil => simp [txFormat, h]
  | cons b op =>
    obtain ⟨⟨hcmd, hinq⟩, hcancel⟩ : (b ≠ typeCmd ∧ b ≠ typeInq) ∧ (op = [] → hiNib b ≠ 2#4) := by
      simpa [plainPayload, ← imp_iff_not_or] using hplain
    simpa [txFormat, h, hcmd, hinq] using hcancel

/-- There is no other payload. -/
theorem payload_cases (p : List Byte) :
    (∃ op, p = typeCmd :: op) ∨ (∃ op, p = typeInq :: op) ∨ (∃ k, p = [joinNib 2#4 k]) ∨ plainPayload p = true := by
  cases p with
  | nil => exact .inr (.inr (.inr rfl))
  | cons b op =>
    by_cases hcmd : b = typeCmd
    · exact .inl ⟨op, by rw [hcmd]⟩
    by_cases hinq : b = typeInq
    · exact .inr (.inl ⟨op, by rw [hinq]⟩)
    by_cases hcancel : op = [] ∧ hiNib b = 2#4
    · obtain ⟨rfl, htype⟩ := hcancel
      obtain ⟨k, rfl⟩ := exists_joinNib_of_hiNib htype
      exact .inr (.inr (.inl ⟨k, rfl⟩))
    · exact .inr (.inr (.inr (by simpa [plainPayload, hcmd, hinq, ← imp_iff_not_or] using hcancel)))

/-- A payload that fits is named by a well-formed format, whose bytes are the packet's. -/
theorem txFormat_encodes {p : List Byte} (hfits : payloadFits prm p = true) :
    wellFormed prm (txFormat prm sh a p) = true ∧
      ∃ c, encode prm (txFormat prm sh a p) = .tx c (joinNib 8#4 a :: (p ++ [term])) := by
  cases hset : isAddressSet prm a p with
  | true =>
    obtain ⟨rfl, rfl⟩ : a = 8#4 ∧ p = prm.addrsetPayload := by simpa [isAddressSet] using hset
    rw [txFormat_addressSet hset]
    exact ⟨hfits, 0, rfl⟩
  | false =>
    rcases payload_cases p with ⟨op, rfl⟩ | ⟨op, rfl⟩ | ⟨k, rfl⟩ | hplain
    · rw [txFormat_command hset]
      exact ⟨by simp [wellFormed, hfits, hset], 0, rfl⟩
    · rw [txFormat_inquiry hset]
      exact ⟨by simp [wellFormed, hfits, hset], _, rfl⟩
    · rw [txFormat_cancel hset]
      exact ⟨by simpa [wellFormed, hset] using hfits, 0, rfl⟩
    · rw [txFormat_plain hset hplain]
      exact ⟨by simp [wellFormed, hfits, hset, hplain], 0, rfl⟩

/-- A payload that fits decodes to the format that names it. -/
theorem decode_tx {p : List Byte} {i : Instr} (hfits : payloadFits prm p = true) (h : txFormat prm sh a p = i) :
    decode prm (.tx sh (joinNib 8#4 a :: (p ++ [term]))) = .ok i := by
  rw [decode, decodeTx_packet prm sh a p (by simpa [payloadFits] using hfits), h]

end

/-- Settles O36: the packet is a destination byte, its payload and the terminator, and the format that names the payload
is well formed and has these bytes. -/
theorem encodeInvertsTransmittedFormats : Obligations.EncodeInvertsTransmittedFormats := by
  intro prm sh p i h
  obtain ⟨a, payload, rfl, hfits, rfl⟩ := decodeTx_inv h
  exact txFormat_encodes (by simpa [payloadFits] using hfits)

/-! ## Every row (R90 to R118) -/

/-- Settles O34: a received row is read as its instruction, a transmitted format is named by its payload, and of every
other row the raw form holds the operands as they are, a shape by its code. -/
theorem decodeInvertsEncode : Obligations.DecodeInvertsEncode := by
  intro prm i hlegal hwf
  cases i with
  | reply hdr k payload => exact (ReadAs.reply hdr k payload).decode_encode hlegal hwf
  | ack hdr k => exact (ReadAs.ack hdr k).decode_encode hlegal hwf
  | pushIr hdr irId key => exact (ReadAs.pushIr hdr irId key).decode_encode hlegal hwf
  | pushNet hdr => exact (ReadAs.pushNet hdr).decode_encode hlegal hwf
  | undersized first => exact (ReadAs.undersized first).decode_encode hlegal hwf
  | error hdr k code => exact (ReadAs.error hdr k code).decode_encode hlegal hwf
  | addrEnumReply n => exact (ReadAs.addrEnumReply n).decode_encode hlegal hwf
  | broadcast rest =>
    obtain ⟨-, htaken⟩ := by simpa [wellFormed] using hwf
    exact (ReadAs.broadcast rest htaken).decode_encode hlegal hwf
  | unknown hdr rest =>
    obtain ⟨-, htaken⟩ := by simpa [wellFormed] using hwf
    exact (ReadAs.unknown hdr rest htaken).decode_encode hlegal hwf
  | txGeneric a p =>
    obtain ⟨⟨hfits, hplain⟩, hset⟩ := by simpa [wellFormed] using hwf
    exact decode_tx hfits (txFormat_plain hset hplain)
  | command a op =>
    obtain ⟨hfits, hset⟩ := by simpa [wellFormed] using hwf
    exact decode_tx hfits (txFormat_command hset)
  | inquiry a shape op =>
    obtain ⟨hfits, hset⟩ := by simpa [wellFormed] using hwf
    exact decode_tx hfits ((txFormat_inquiry hset).trans (by rw [shapeOfCode_shapeCode]))
  | addressSet => exact decode_tx (a := 8#4) hwf (txFormat_addressSet (by simp [isAddressSet]))
  | cancel a k =>
    obtain ⟨hfits, hset⟩ := by simpa [wellFormed] using hwf
    exact decode_tx hfits (txFormat_cancel hset)
  | nibbleByte n => simp [encode, decode]
  | inq addr shape items => simp [encode, decode, decodeReq]
  | decode shape => simp [encode, decode, decodeReq]
  | inquiryPseudo addr shape items => simp [encode, decode, decodeLine]
  | _ => rfl

/-- Settles O38: the eight words are closed, so their packets are completed and classified by evaluation. -/
theorem tableWordsDecodeToTheirRows : Obligations.TableWordsDecodeToTheirRows := by
  unfold Obligations.TableWordsDecodeToTheirRows
  decide

end Sys2Proof.Proofs
end

section
/-! The transitions of the block (spec/40_framer.md R141; spec/10_state.md R36 to R41): everything a step without a
Reset can do, event by event, and which steps stop: the statement O41. -/

namespace Sys2Proof.Proofs

open Sys2Proof.Config Sys2Proof.Machine

/-! ## What a step takes from the ports (R41, R63) -/

/-- The state with the next request taken from its port. -/
def requestTaken (s : State) : State := { dropSample s with requests := s.requests.rest }

/-- The state with the next answer of the receive stream taken. -/
def answerTaken (s : State) : State := { dropSample s with rxStream := s.rxStream.rest }

/-- The state with the count of the write taken. -/
def countTaken (s : State) : State := { dropSample s with txAnswers := s.txAnswers.rest }

/-- The state with the handler's return taken. -/
def returnTaken (s : State) : State := { dropSample s with handlerReturns := s.handlerReturns.rest }

/-! ## Outcomes of a framing (R133 to R137) -/

/-- The kinds and codes a framing ends with, but for an enumeration reply that carries a count (R133 to R137, R250). -/
inductive EndsFraming : Kind → Byte → Prop
  | reply : EndsFraming .reply codeSuccess
  | ack : EndsFraming .ack codeAcknowledge
  | undersized : EndsFraming .undersized codeUndersized
  | error (c : Byte) : EndsFraming .error c
  | broadcast : EndsFraming .broadcast codeSuccess
  | unknown : EndsFraming .unknown codeUnknown
  | oversized : EndsFraming .oversized codeOversized
  | timeout : EndsFraming .timeout codeTimeout
  | transportErr (c : Byte) : EndsFraming .transportErr c

/-- None of these kinds is a push kind, and none an enumeration reply (R27, R159). -/
theorem EndsFraming.kind_ne {k : Kind} {c : Byte} (h : EndsFraming k c) :
    k ≠ .pushIr ∧ k ≠ .pushNet ∧ k ≠ .addrEnum := by cases h <;> decide

/-- A failure comes with its code (R250). -/
theorem EndsFraming.coded {k : Kind} {c : Byte} (h : EndsFraming k c) : kindFails k = true → c ≠ 0x00 := by
  cases h with
  | error | transportErr => nofun
  | _ => decide

/-- Everything a received packet can do: end the framing, be an enumeration reply with a count, or be a push message. -/
theorem exec_classify_cases (p : List Byte) (s : State) :
    (∃ k c, EndsFraming k c ∧ exec (classify p) s = .next (terminal k c s)) ∨
    (∃ n, classify p = .addrEnumReply n ∧ 2 ≤ n.toNat ∧ n.toNat ≤ 8 ∧
      exec (classify p) s =
        .next (terminal .addrEnum codeSuccess { s with camcnt := BitVec.ofNat 3 (n.toNat - 1) })) ∨
    (∃ enabled o, o.isPush = true ∧ exec (classify p) s = .next (deliverPush enabled o s)) := by
  rcases classify_cases p with ⟨hdr, k, payload, h⟩ | ⟨hdr, k, h⟩ | ⟨hdr, i, key, h⟩ | ⟨hdr, h⟩ | ⟨first, h⟩ |
    ⟨hdr, k, c, h⟩ | ⟨n, h⟩ | ⟨rest, h⟩ | ⟨hdr, rest, h⟩ <;> rw [h]
  · exact .inl ⟨_, _, .reply, rfl⟩
  · exact .inl ⟨_, _, .ack, rfl⟩
  · exact .inr (.inr ⟨_, _, rfl, rfl⟩)
  · exact .inr (.inr ⟨_, _, rfl, rfl⟩)
  · exact .inl ⟨_, _, .undersized, rfl⟩
  · exact .inl ⟨_, _, .error c, rfl⟩
  · by_cases hcount : (0x02 : Byte) ≤ n ∧ n ≤ 0x08
    · exact .inr (.inl ⟨n, rfl, hcount.1, hcount.2, if_pos hcount⟩)
    · exact .inl ⟨_, _, .unknown, if_neg hcount⟩
  · exact .inl ⟨_, _, .broadcast, rfl⟩
  · exact .inl ⟨_, _, .unknown, rfl⟩

/-! ## Transitions -/

/-- What the receive buffer and its length are when a framing's outcome is taken: as they were, where the transport
answered Empty or Error, or with the byte it answered stored. -/
inductive Stored (s : State) : List Byte → Nat → Prop
  | nothing : Stored s s.rbuf s.rlen
  | byte (b : Byte) (hread : s.rxStream.head? = some (.byte b)) (hroom : s.rlen < s.cfg.maxLen) :
    Stored s (s.rbuf.set s.rlen b) (s.rlen + 1)

/-- A step that samples no Reset: what it does, by the phase and the event it accepts (R24, R141). -/
inductive Transition (s : State) : State → Prop
  /-- nothing is offered (log 6) -/
  | waited : Transition s (dropSample s)
  /-- request code 0 (R36) -/
  | ignored (hphase : s.phase = .idle) : Transition s (requestTaken s)
  /-- RECV or WAIT (R130, R180) -/
  | listened (mode : Mode) (hphase : s.phase = .idle) : Transition s (startFrame { requestTaken s with mode := mode })
  /-- SEND, INQ or ASSIGN (R190, R191, R230) -/
  | wrote (mode : Mode) (sh : Shape) (addr : Byte) (p : List Byte) (hphase : s.phase = .idle)
    (hmode : modeWrites mode = true) (hfits : p.length + 2 ≤ s.cfg.maxLen) :
    Transition s (issueWrite (buildPacket addr p { requestTaken s with mode := mode, shapeR := sh }))
  /-- DECODE (R216) -/
  | decoded (r : ReqSignals) (hphase : s.phase = .idle) (hr : s.requests.head? = some r) (hop : r.op = 5#3) :
    Transition s (finish (decodeReply (shapeOfCode r.shape) (requestTaken s)))
  /-- SETH (R235) -/
  | registered (r : ReqSignals) (hphase : s.phase = .idle) (hr : s.requests.head? = some r) (hop : r.op = 7#3) :
    Transition s (finish { requestTaken s with irEn := r.irEn, netEn := r.netEn })
  /-- a byte inside a packet (R135) -/
  | stored (b : Byte) (hphase : s.phase = .rxw) (hread : s.rxStream.head? = some (.byte b))
    (hroom : s.rlen + 1 < s.cfg.maxLen) (hb : b ≠ term) :
    Transition s (emit .rxReq (storeByte b (answerTaken s)))
  /-- the end of a framing (R133, R134, R136, R137, R139) -/
  | ended (k : Kind) (c : Byte) (rbuf : List Byte) (rlen : Nat) (hphase : s.phase = .rxw)
    (hread : s.rxStream.head?.isSome) (hstored : Stored s rbuf rlen) (hends : EndsFraming k c) :
    Transition s (terminal k c { answerTaken s with rbuf := rbuf, rlen := rlen })
  /-- an enumeration reply with a count (R156) -/
  | counted (n : Byte) (hphase : s.phase = .rxw) (hread : s.rxStream.head? = some (.byte term))
    (hroom : s.rlen < s.cfg.maxLen) (hpacket : classify (rxPacket (storeByte term (answerTaken s))) = .addrEnumReply n)
    (hlo : 2 ≤ n.toNat) (hhi : n.toNat ≤ 8) :
    Transition s (terminal .addrEnum codeSuccess
      { storeByte term (answerTaken s) with camcnt := BitVec.ofNat 3 (n.toNat - 1) })
  /-- a push message (R152, R153, R159) -/
  | pushed (enabled : Bool) (o : Output) (hphase : s.phase = .rxw) (hread : s.rxStream.head? = some (.byte term))
    (hroom : s.rlen < s.cfg.maxLen) (ho : o.isPush = true) :
    Transition s (deliverPush enabled o (storeByte term (answerTaken s)))
  /-- a write that fell short (R196) -/
  | writeFailed (hphase : s.phase = .txw) : Transition s (finish (latch .writeFail codeOther (countTaken s)))
  /-- a write that is complete (R197) -/
  | writeDone (hphase : s.phase = .txw) : Transition s (startFrame (countTaken s))
  /-- the return of a handler (R160) -/
  | returned (hphase : s.phase = .hdw) : Transition s (startFrame (returnTaken s))

/-- The request is for a packet longer than MAXLEN (R199, R281; log 17). -/
def Overlong (s : State) (r : ReqSignals) : Prop :=
  ((r.op = 3#3 ∨ r.op = 4#3) ∧ s.cfg.maxLen < (expand r.items).length + 2) ∨
    (r.op = 6#3 ∧ s.cfg.maxLen < s.cfg.addrsetPayload.length + 2)

section
variable {s : State}

/-- Building and writing a packet is a transition, or is refused for its length (R195, R199). -/
theorem buildAndWrite_transition (hphase : s.phase = .idle) {mode : Mode} (hmode : modeWrites mode = true) (sh : Shape)
    (addr : Byte) (p : List Byte) :
    (∃ t, buildAndWrite addr p { requestTaken s with mode := mode, shapeR := sh } = .next t ∧ Transition s t) ∨
      (buildAndWrite addr p { requestTaken s with mode := mode, shapeR := sh } = .refused .payloadTooLong ∧
        s.cfg.maxLen < p.length + 2) := by
  by_cases hfits : p.length + 2 ≤ s.cfg.maxLen
  · exact .inl ⟨_, buildAndWrite_fits addr p _ hfits, .wrote mode sh addr p hphase hmode hfits⟩
  · exact .inr ⟨buildAndWrite_too_long addr p _ (Nat.not_le.mp hfits), Nat.not_le.mp hfits⟩

/-- An accepted request is a transition, or is refused for its packet's length. -/
theorem request_transition (hphase : s.phase = .idle) {r : ReqSignals} (hr : s.requests.head? = some r) :
    (∃ t, exec (decodeReq r) (requestTaken s) = .next t ∧ Transition s t) ∨
      (exec (decodeReq r) (requestTaken s) = .refused .payloadTooLong ∧ Overlong s r) := by
  have hidle : (requestTaken s).phase = .idle := hphase
  unfold decodeReq
  split_ifs with hrecv hwait hsend hinq hdecode hassign hseth
  · exact .inl ⟨_, whenIdle_idle _ _ hidle, .listened .recv hphase⟩
  · exact .inl ⟨_, whenIdle_idle _ _ hidle, .listened .wait hphase⟩
  · rw [show exec (.send r.addr r.items) (requestTaken s) = _ from whenIdle_idle _ _ hidle]
    refine (buildAndWrite_transition hphase rfl s.shapeR r.addr (expand r.items)).imp_right ?_
    exact fun ⟨h, hlen⟩ => ⟨h, .inl ⟨.inl hsend, hlen⟩⟩
  · rw [show exec (.inq r.addr _ r.items) (requestTaken s) = _ from whenIdle_idle _ _ hidle]
    refine (buildAndWrite_transition hphase rfl _ r.addr (expand r.items)).imp_right ?_
    exact fun ⟨h, hlen⟩ => ⟨h, .inl ⟨.inr hinq, hlen⟩⟩
  · exact .inl ⟨_, whenIdle_idle _ _ hidle, .decoded r hphase hr hdecode⟩
  · rw [show exec .assign (requestTaken s) = _ from whenIdle_idle _ _ hidle]
    refine (buildAndWrite_transition hphase rfl s.shapeR addrBcast s.cfg.addrsetPayload).imp_right ?_
    exact fun ⟨h, hlen⟩ => ⟨h, .inr ⟨hassign, hlen⟩⟩
  · exact .inl ⟨_, whenIdle_idle _ _ hidle, .registered r hphase hr hseth⟩
  · exact .inl ⟨_, rfl, .ignored hphase⟩

/-- An answer of the transport is a transition, if there is room for the byte it may be. -/
theorem answer_transition (hphase : s.phase = .rxw) {a : RxAnswer} (ha : s.rxStream.head? = some a)
    (hroom : ∀ b, a = .byte b → s.rlen < s.cfg.maxLen) :
    ∃ t, onEvent (.rxRsp a) (answerTaken s) = .next t ∧ Transition s t := by
  have hsome : s.rxStream.head?.isSome := by rw [ha]; rfl
  cases a with
  | empty => exact ⟨_, onEvent_empty_reading hphase, .ended _ _ _ _ hphase hsome .nothing .timeout⟩
  | error => exact ⟨_, onEvent_error_reading hphase, .ended _ _ _ _ hphase hsome .nothing (.transportErr _)⟩
  | byte b =>
    have hlt := hroom b rfl
    have hstored := Stored.byte b ha hlt
    rw [onEvent_byte b (answerTaken s) hphase hlt]
    split_ifs with hb hfull
    · subst hb
      rcases exec_classify_cases (rxPacket (storeByte term (answerTaken s))) (storeByte term (answerTaken s)) with
        ⟨k, c, hends, h⟩ | ⟨n, hn, hlo, hhi, h⟩ | ⟨enabled, o, ho, h⟩
      · exact ⟨_, h, .ended k c _ _ hphase hsome hstored hends⟩
      · exact ⟨_, h, .counted n hphase ha hlt hn hlo hhi⟩
      · exact ⟨_, h, .pushed enabled o hphase ha hlt ho⟩
    · exact ⟨_, rfl, .ended _ _ _ _ hphase hsome hstored .oversized⟩
    · have hfull : s.rlen + 1 ≠ s.cfg.maxLen := hfull
      exact ⟨_, rfl, .stored b hphase ha (by omega) hb⟩

/-- The answer to a write is a transition (R196, R197). -/
theorem count_transition (hphase : s.phase = .txw) (w : Int) : Transition s (writeAnswered w (countTaken s)) := by
  rcases writeAnswered_cases w (countTaken s) with ⟨hnot, -⟩ | ⟨-, -, h⟩ | ⟨-, -, h⟩
  · exact absurd hphase hnot
  · rw [h]
    exact .writeFailed hphase
  · rw [h]
    exact .writeDone hphase

/-- The return of a handler is a transition (R160). -/
theorem return_transition (hphase : s.phase = .hdw) : Transition s (handlerReturned (returnTaken s)) := by
  rw [handlerReturned_of_waiting (s := returnTaken s) hphase]
  exact .returned hphase

/-- Without room for it a byte stops the machine (R84; log 18). -/
theorem onEvent_byte_without_room (b : Byte) (hphase : s.phase = .rxw) (hroom : ¬s.rlen < s.cfg.maxLen) :
    onEvent (.rxRsp (.byte b)) s = .fault .rbufIndex := by
  simp [onEvent, accept, onByte, hphase, hroom, Action.perform]

/-- A step in RXW that goes on had room for the byte it read. -/
theorem room_of_onEvent {t : State} {a : RxAnswer} (hphase : s.phase = .rxw) (h : onEvent (.rxRsp a) s = .next t) :
    ∀ b, a = .byte b → s.rlen < s.cfg.maxLen := by
  rintro b rfl
  by_contra hroom
  rw [onEvent_byte_without_room b hphase hroom] at h
  cases h

/-- Every step that goes on is a Reset or a transition. -/
theorem step_transition {t : State} (h : step s = .next t) :
    (resetSampled s = true ∧ t = resetBlock (dropSample s)) ∨ (resetSampled s = false ∧ Transition s t) := by
  obtain ⟨hlegal, -⟩ := step_cases h
  rcases nextEvent_cases s with ⟨hrst, he⟩ | ⟨hrst, he⟩ | ⟨hrst, hphase, r, hr, he⟩ | ⟨hrst, hphase, a, ha, he⟩ |
    ⟨hrst, hphase, w, -, he⟩ | ⟨hrst, hphase, u, -, he⟩
  · rw [step_event hlegal he] at h
    exact .inl ⟨hrst, (Host.Outcome.next.inj h).symm⟩
  · rw [step_waits hlegal he] at h
    cases h
    exact .inr ⟨hrst, .waited⟩
  · rw [step_event hlegal he] at h
    rcases request_transition hphase hr with ⟨v, hv, htrans⟩ | ⟨hv, -⟩
    · obtain rfl : v = t := Host.Outcome.next.inj (hv.symm.trans h)
      exact .inr ⟨hrst, htrans⟩
    · exact nomatch hv.symm.trans h
  · rw [step_event hlegal he] at h
    obtain ⟨v, hv, htrans⟩ := answer_transition hphase ha (room_of_onEvent (s := answerTaken s) hphase h)
    obtain rfl : v = t := Host.Outcome.next.inj (hv.symm.trans h)
    exact .inr ⟨hrst, htrans⟩
  · rw [step_event hlegal he] at h
    cases h
    exact .inr ⟨hrst, count_transition hphase w⟩
  · rw [step_event hlegal he] at h
    cases h
    exact .inr ⟨hrst, return_transition hphase⟩

/-- A step goes on, or refuses an over-long request in IDLE, if in RXW there is room for a byte. -/
theorem step_goes_on (hlegal : s.cfg.legal) (hroom : s.phase = .rxw → s.rlen < s.cfg.maxLen) :
    (∃ t, step s = .next t) ∨
      (step s = .refused .payloadTooLong ∧ s.phase = .idle ∧ ∃ r, s.requests.head? = some r ∧ Overlong s r) := by
  rcases nextEvent_cases s with ⟨-, he⟩ | ⟨-, he⟩ | ⟨-, hphase, r, hr, he⟩ | ⟨-, hphase, a, ha, he⟩ |
    ⟨-, -, w, -, he⟩ | ⟨-, -, u, -, he⟩
  · exact .inl ⟨_, step_event hlegal he⟩
  · exact .inl ⟨_, step_waits hlegal he⟩
  · rcases request_transition hphase hr with ⟨t, ht, -⟩ | ⟨ht, hlong⟩
    · exact .inl ⟨t, (step_event hlegal he).trans ht⟩
    · exact .inr ⟨(step_event hlegal he).trans ht, hphase, r, hr, hlong⟩
  · obtain ⟨t, ht, -⟩ := answer_transition hphase ha fun _ _ => hroom hphase
    exact .inl ⟨t, (step_event hlegal he).trans ht⟩
  · exact .inl ⟨_, step_event hlegal he⟩
  · exact .inl ⟨_, step_event hlegal he⟩

end

/-- Settles O41: the invariant gives legal parameters and room for a byte. -/
theorem stepsStopOnlyOnOverlongRequests : Obligations.StepsStopOnlyOnOverlongRequests :=
  fun _ hinv => step_goes_on hinv.legal fun hphase => (hinv.reading hphase).1

end Sys2Proof.Proofs
end

section
/-! The invariant (spec/20_memory.md R62, R76, R77, R84; spec/10_state.md R27, R29; spec/60_exceptions.md R250, R261):
what each operation of the block needs and leaves of it, and the statements O39 and O40. -/

namespace Sys2Proof.Proofs

open Sys2Proof.Config Sys2Proof.Machine

/-! ## The part of the invariant that no phase is named in -/

/-- The registers are well formed, whatever the phase. -/
structure RegistersWf (s : State) : Prop where
  legal : s.cfg.legal
  buffers : BuffersWf s
  kind_not_push : s.kind ≠ .pushIr ∧ s.kind ≠ .pushNet
  enum_counted : s.kind = .addrEnum → s.camcnt ≠ 0
  failure_coded : kindFails s.kind = true → s.result ≠ 0x00

theorem registersWf_of_inv {s : State} (h : Inv s) : RegistersWf s :=
  ⟨h.legal, h.buffers, h.kind_not_push, h.enum_counted, h.failure_coded⟩

/-- The counts of 1 to 7 that an enumeration reply carries, in the register's three bits (R29, R156). -/
theorem toNat_count {n : Nat} (hhi : n ≤ 8) : (BitVec.ofNat 3 (n - 1)).toNat = n - 1 := by
  rw [BitVec.toNat_ofNat]
  omega

section
variable {s : State}

/-- Whatever changes none of them keeps them well formed. -/
theorem RegistersWf.of_eq (h : RegistersWf s) {t : State} (hcfg : t.cfg = s.cfg) (hbuffers : BuffersWf t)
    (hkind : t.kind = s.kind) (hresult : t.result = s.result) (hcamcnt : t.camcnt = s.camcnt) : RegistersWf t where
  legal := hcfg ▸ h.legal
  buffers := hbuffers
  kind_not_push := hkind ▸ h.kind_not_push
  enum_counted := by rw [hkind, hcamcnt]; exact h.enum_counted
  failure_coded := by rw [hkind, hresult]; exact h.failure_coded

/-- In particular whatever leaves the buffers alone. -/
theorem RegistersWf.of_same (h : RegistersWf s) {t : State} (hcfg : t.cfg = s.cfg)
    (hrx : t.rbuf = s.rbuf ∧ t.rlen = s.rlen) (htx : t.tbuf = s.tbuf ∧ t.tlen = s.tlen)
    (hstatus : t.kind = s.kind ∧ t.result = s.result ∧ t.camcnt = s.camcnt) : RegistersWf t :=
  h.of_eq hcfg (h.buffers.of_eq hcfg hrx.1 htx.1 hrx.2 htx.2) hstatus.1 hstatus.2.1 hstatus.2.2

/-- A kind that is none of the push kinds may be latched, a failure with its code (R159, R250). -/
theorem RegistersWf.latch (h : RegistersWf s) {k : Kind} {c : Byte}
    (hkind : k ≠ .pushIr ∧ k ≠ .pushNet ∧ k ≠ .addrEnum) (hcoded : kindFails k = true → c ≠ 0x00) :
    RegistersWf (latch k c s) where
  legal := h.legal
  buffers := h.buffers.of_eq rfl rfl rfl rfl rfl
  kind_not_push := ⟨hkind.1, hkind.2.1⟩
  enum_counted hk := absurd hk hkind.2.2
  failure_coded := hcoded

/-- An enumeration reply may be latched with its count (R29, R156). -/
theorem RegistersWf.latch_addrEnum (h : RegistersWf s) {n : Nat} (hlo : 2 ≤ n) (hhi : n ≤ 8) :
    RegistersWf (Machine.latch .addrEnum codeSuccess { s with camcnt := BitVec.ofNat 3 (n - 1) }) where
  legal := h.legal
  buffers := h.buffers.of_eq rfl rfl rfl rfl rfl
  kind_not_push := ⟨nofun, nofun⟩
  enum_counted _ := by
    have hcount := toNat_count hhi
    have hpos : n - 1 ≠ 0 := by omega
    exact fun hzero => hpos (hcount.symm.trans (congrArg BitVec.toNat hzero))
  failure_coded := nofun

/-- A result of UnexpectedPacket is no success code. -/
theorem RegistersWf.unexpected (h : RegistersWf s) : RegistersWf { s with result := codeUnexpected } :=
  ⟨h.legal, h.buffers.of_eq rfl rfl rfl rfl rfl, h.kind_not_push, h.enum_counted,
    fun _ => (by decide : codeUnexpected ≠ 0x00)⟩

/-- A decode keeps the registers well formed: only a Reply gets the success code (R214, R215). -/
theorem RegistersWf.decodeReply (h : RegistersWf s) (sh : Shape) : RegistersWf (decodeReply sh s) := by
  cases hfits : fitsShape sh s with
  | false =>
    rw [decodeReply_fails sh s hfits]
    exact h.unexpected
  | true =>
    obtain ⟨hkind, -⟩ := (fitsShape_iff sh s).mp hfits
    refine ⟨by simpa using h.legal, decodeReply_buffersWf sh h.buffers, by simpa using h.kind_not_push,
      by simpa using h.enum_counted, ?_⟩
    simp [hkind, kindFails]

theorem postCheck_unchecked (h : s.mode = .recv ∨ s.mode = .wait ∨ s.mode = .send) : Machine.postCheck s = s := by
  rcases h with h | h | h <;> rw [Machine.postCheck, h]

theorem postCheck_inq (h : s.mode = .inq) : Machine.postCheck s = postInq s := by rw [Machine.postCheck, h]

theorem postCheck_assign (h : s.mode = .assign) : Machine.postCheck s = postAssign s := by rw [Machine.postCheck, h]

/-- So does the post-check of every mode (R184, R233). -/
theorem RegistersWf.postCheck (h : RegistersWf s) : RegistersWf (postCheck s) := by
  cases hmode : s.mode with
  | recv | wait | send => rwa [postCheck_unchecked (by simp [hmode])]
  | inq =>
    rw [postCheck_inq hmode, postInq]
    split_ifs
    · exact h.decodeReply _
    · exact h.unexpected
    · exact h
  | assign =>
    rw [postCheck_assign hmode, postAssign]
    split_ifs
    · exact h.unexpected
    · exact h

/-- So does building a packet that fits (R194). -/
theorem RegistersWf.buildPacket (h : RegistersWf s) (addr : Byte) {p : List Byte}
    (hfits : p.length + 2 ≤ s.cfg.maxLen) : RegistersWf (buildPacket addr p s) := by
  have hbuffers : BuffersWf (Machine.buildPacket addr p s) :=
    (buildAndWrite_buffersWf h.buffers (buildAndWrite_fits addr p s hfits)).of_eq rfl rfl rfl rfl rfl
  exact h.of_eq (by simp) hbuffers (by simp) (by simp) (by simp)

/-- So does what a framing stores (R132). -/
theorem Stored.registersWf {rbuf : List Byte} {rlen : Nat} (hstored : Stored s rbuf rlen) (h : RegistersWf s) :
    RegistersWf { answerTaken s with rbuf := rbuf, rlen := rlen } := by
  have htaken : BuffersWf (answerTaken s) := h.buffers.of_eq rfl rfl rfl rfl rfl
  cases hstored with
  | nothing => exact h.of_same rfl ⟨rfl, rfl⟩ ⟨rfl, rfl⟩ ⟨rfl, rfl, rfl⟩
  | byte b _ hroom => exact h.of_eq rfl (storeByte_buffersWf b htaken hroom) rfl rfl rfl

/-! ## The invariant after each operation -/

/-- At the start of a packet (R131). -/
theorem inv_startFrame (h : RegistersWf s) : Inv (startFrame s) where
  legal := h.legal
  buffers := startFrame_buffersWf h.buffers
  kind_not_push := h.kind_not_push
  reading _ := ⟨Nat.lt_of_lt_of_le (Nat.zero_lt_succ 2) h.legal, by simp [rxPacket]⟩
  read_issued _ := by simp
  write_issued := nofun
  push_issued := nofun
  ack_only_recv := nofun
  enum_counted := h.enum_counted
  failure_coded := h.failure_coded

/-- At the end of an operation (R140). -/
theorem inv_finish (h : RegistersWf s) (hack : s.kind = .ack → s.mode = .recv) : Inv (finish s) where
  legal := h.legal
  buffers := finish_buffersWf h.buffers
  kind_not_push := h.kind_not_push
  reading := nofun
  read_issued := nofun
  write_issued := nofun
  push_issued := nofun
  ack_only_recv _ := hack
  enum_counted := h.enum_counted
  failure_coded := h.failure_coded

/-- At the end of a framing that latches something well formed (R139, R181). -/
theorem inv_terminal {k : Kind} {c : Byte} (h : RegistersWf (latch k c s)) : Inv (terminal k c s) := by
  rcases terminal_cases k c s with ⟨hmode, ht⟩ | ⟨-, -, ht⟩ | ⟨-, hack, ht⟩ <;> rw [ht]
  · exact inv_finish h fun _ => hmode
  · exact inv_startFrame h
  · exact inv_finish h.postCheck fun hk => absurd (by simpa using hk) hack

/-- After a push message (R159, R264). -/
theorem inv_deliverPush (h : RegistersWf s) (enabled : Bool) {o : Output} (ho : o.isPush = true) :
    Inv (deliverPush enabled o s) := by
  cases enabled with
  | false => exact inv_startFrame h
  | true =>
    exact {
      legal := h.legal
      buffers := deliverPush_buffersWf true o h.buffers
      kind_not_push := h.kind_not_push
      reading := nofun
      read_issued := nofun
      write_issued := nofun
      push_issued := fun _ => ⟨o, List.getLast?_concat, ho⟩
      ack_only_recv := nofun
      enum_counted := h.enum_counted
      failure_coded := h.failure_coded }

/-- After a packet is handed over by an operation that writes (R195). -/
theorem inv_issueWrite (h : RegistersWf s) (hmode : modeWrites s.mode = true) (hlen : 2 ≤ s.tlen) :
    Inv (issueWrite s) where
  legal := h.legal
  buffers := h.buffers.of_eq rfl rfl rfl rfl rfl
  kind_not_push := h.kind_not_push
  reading := nofun
  read_issued := nofun
  write_issued _ := ⟨hmode, hlen, List.getLast?_concat⟩
  push_issued := nofun
  ack_only_recv := nofun
  enum_counted := h.enum_counted
  failure_coded := h.failure_coded

/-- After a byte inside a packet (R135). -/
theorem inv_stored (h : Inv s) {b : Byte} (hphase : s.phase = .rxw) (hroom : s.rlen + 1 < s.cfg.maxLen)
    (hb : b ≠ term) : Inv (emit .rxReq (storeByte b s)) where
  legal := h.legal
  buffers := emit_buffersWf .rxReq (storeByte_buffersWf b h.buffers (Nat.lt_of_succ_lt hroom))
  kind_not_push := h.kind_not_push
  reading _ := by
    have hin : s.rlen < s.rbuf.length := by rw [h.buffers.rbuf_length]; omega
    have hpacket : rxPacket (emit .rxReq (storeByte b s)) = rxPacket s ++ [b] := rxPacket_storeByte b hin
    have hterm := (h.reading hphase).2
    exact ⟨hroom, by rw [hpacket]; simp_all [noTerm]⟩
  read_issued _ := List.getLast?_concat
  write_issued hp := nomatch hphase.symm.trans hp
  push_issued hp := nomatch hphase.symm.trans hp
  ack_only_recv hp := nomatch hphase.symm.trans hp
  enum_counted := h.enum_counted
  failure_coded := h.failure_coded

end

/-! ## The invariant at reset and after every step -/

/-- After Reset the block is idle and nothing is latched (R42). -/
theorem inv_resetBlock {s : State} (h : s.cfg.legal) : Inv (resetBlock s) where
  legal := h
  buffers := resetBlock_buffersWf s
  kind_not_push := ⟨nofun, nofun⟩
  reading := nofun
  read_issued := nofun
  write_issued := nofun
  push_issued := nofun
  ack_only_recv := nofun
  enum_counted := nofun
  failure_coded := nofun

/-- Settles O40: the state after reset is idle, and nothing is latched. -/
theorem resetHasTheInvariant : Obligations.ResetHasTheInvariant where
  legal := by decide
  buffers := reset_buffersWf
  kind_not_push := ⟨nofun, nofun⟩
  reading := nofun
  read_issued := nofun
  write_issued := nofun
  push_issued := nofun
  ack_only_recv := nofun
  enum_counted := nofun
  failure_coded := nofun

/-- The invariant does not depend on what the ports still offer (log 4). -/
theorem inv_of_ports {s : State} (h : Inv s) (requests : Feed ReqSignals) (rxStream : Feed RxAnswer) (rst : Feed Bool) :
    Inv { s with requests := requests, rxStream := rxStream, rst := rst } :=
  ⟨h.legal, h.buffers.of_eq rfl rfl rfl rfl rfl, h.kind_not_push, h.reading, h.read_issued, h.write_issued,
    h.push_issued, h.ack_only_recv, h.enum_counted, h.failure_coded⟩

/-- Every transition keeps the invariant. -/
theorem Transition.inv {s t : State} (ht : Transition s t) (h : Inv s) : Inv t := by
  have hs : RegistersWf s := registersWf_of_inv h
  cases ht with
  | waited => exact inv_of_ports h s.requests s.rxStream s.rst.rest
  | ignored => exact inv_of_ports h s.requests.rest s.rxStream s.rst.rest
  | listened mode => exact inv_startFrame (hs.of_same rfl ⟨rfl, rfl⟩ ⟨rfl, rfl⟩ ⟨rfl, rfl, rfl⟩)
  | wrote mode sh addr p _ hmode hfits =>
    have hu : RegistersWf { requestTaken s with mode := mode, shapeR := sh } :=
      hs.of_same rfl ⟨rfl, rfl⟩ ⟨rfl, rfl⟩ ⟨rfl, rfl, rfl⟩
    exact inv_issueWrite (hu.buildPacket addr hfits) (by simpa using hmode) (by simp)
  | decoded r hphase =>
    have hu : RegistersWf (requestTaken s) := hs.of_same rfl ⟨rfl, rfl⟩ ⟨rfl, rfl⟩ ⟨rfl, rfl, rfl⟩
    refine inv_finish (hu.decodeReply _) ?_
    rw [decodeReply_kind, decodeReply_mode]
    exact h.ack_only_recv hphase
  | registered r hphase =>
    exact inv_finish (hs.of_same rfl ⟨rfl, rfl⟩ ⟨rfl, rfl⟩ ⟨rfl, rfl, rfl⟩) (h.ack_only_recv hphase)
  | stored b hphase _ hroom hb =>
    exact inv_stored (inv_of_ports h s.requests s.rxStream.rest s.rst.rest) hphase hroom hb
  | ended k c rbuf rlen _ _ hstored hends =>
    exact inv_terminal ((hstored.registersWf hs).latch hends.kind_ne hends.coded)
  | counted n _ hread hroom _ hlo hhi =>
    exact inv_terminal (((Stored.byte term hread hroom).registersWf hs).latch_addrEnum hlo hhi)
  | pushed enabled o _ hread hroom ho =>
    exact inv_deliverPush ((Stored.byte term hread hroom).registersWf hs) enabled ho
  | writeFailed =>
    have hu : RegistersWf (countTaken s) := hs.of_same rfl ⟨rfl, rfl⟩ ⟨rfl, rfl⟩ ⟨rfl, rfl, rfl⟩
    exact inv_finish (hu.latch (by decide) fun _ => by decide) nofun
  | writeDone => exact inv_startFrame (hs.of_same rfl ⟨rfl, rfl⟩ ⟨rfl, rfl⟩ ⟨rfl, rfl, rfl⟩)
  | returned => exact inv_startFrame (hs.of_same rfl ⟨rfl, rfl⟩ ⟨rfl, rfl⟩ ⟨rfl, rfl, rfl⟩)

/-- Settles O39: a Reset leaves the block idle with nothing latched, and every transition keeps the invariant. -/
theorem stepKeepsTheInvariant : Obligations.StepKeepsTheInvariant := by
  intro s t h hstep
  rcases step_transition hstep with ⟨-, rfl⟩ | ⟨-, ht⟩
  · exact inv_resetBlock (s := dropSample s) h.legal
  · exact ht.inv h

end Sys2Proof.Proofs
end

section
/-! The rules of the whole machine (spec/10_state.md R20 to R44; spec/20_memory.md R60 to R81; spec/60_exceptions.md
R267): what a transition can change of each register and port, and the statements O46 to O55. -/

namespace Sys2Proof.Proofs

open Sys2Proof.Config Sys2Proof.Machine

/-! ## What the end of a framing can change (R139, R181, R184, R233) -/

theorem requiredLength_eq (sh : Shape) : requiredLength sh = shapeNibbles sh + 3 := by cases sh <;> rfl

/-- `PostInq` decodes a Reply of the latched shape, reports UnexpectedPacket, or leaves what is no success (R184). -/
theorem postInq_cases (s : State) :
    (s.kind = .reply ∧ s.rlen = requiredLength s.shapeR ∧ postInq s = { withFields s.shapeR s with result := 0x00 }) ∨
    postInq s = { s with result := 0xFA } ∨ (postInq s = s ∧ success s.kind s.result = false) := by
  rw [postInq]
  split_ifs with hreply hsuccess
  · cases hfits : fitsShape s.shapeR s with
    | true =>
      obtain ⟨-, hlen⟩ := (fitsShape_iff _ _).mp hfits
      rw [decodeReply_fits _ _ hfits, writeFields_eq_withFields]
      exact .inl ⟨hreply, hlen.trans (requiredLength_eq _).symm, rfl⟩
    | false => exact .inr (.inl (decodeReply_fails _ _ hfits))
  · exact .inr (.inl rfl)
  · rw [inqUnexpected_of_ne_reply hreply, Bool.not_eq_true] at hsuccess
    exact .inr (.inr ⟨rfl, hsuccess⟩)

/-- `PostAssign` reports UnexpectedPacket, or leaves an enumeration reply and what is no success (R233). -/
theorem postAssign_cases (s : State) :
    postAssign s = { s with result := 0xFA } ∨
    (postAssign s = s ∧ (success s.kind s.result = true → s.kind = .addrEnum)) := by
  rw [postAssign]
  split_ifs with hunexpected
  · exact .inl rfl
  · rw [assignUnexpected_iff, not_and, not_not] at hunexpected
    exact .inr ⟨rfl, hunexpected⟩

/-- The end of a framing starts the next packet, or ends the operation with its post-check. -/
theorem terminal_startFrame_or_finish (k : Kind) (c : Byte) (s : State) :
    terminal k c s = startFrame (latch k c s) ∨ terminal k c s = finish (postCheck (latch k c s)) := by
  rcases terminal_cases k c s with ⟨hmode, -⟩ | ⟨-, -, h⟩ | ⟨-, -, h⟩
  · exact .inr (terminal_finishes c fun _ => hmode)
  · exact .inl h
  · exact .inr h

/-! ## Handlers, ports and buffers (R20, R22, R30, R31, R62, R63, R77, R79) -/

/-- Settles O47: of the transitions only an accepted SETH writes the enables. -/
theorem handlersAreRegisteredBySethOnly : Obligations.HandlersAreRegisteredBySethOnly := by
  intro s t hstep hchanged
  rcases step_transition hstep with ⟨hrst, rfl⟩ | ⟨-, ht⟩
  · exact .inl ⟨hrst, rfl, rfl⟩
  · cases ht with
    | registered r hphase hr hop => exact .inr ⟨hphase, r, hr, hop, rfl, rfl⟩
    | waited | ignored | listened | wrote | decoded | stored | ended | counted | pushed | writeFailed | writeDone
      | returned => simp [requestTaken, answerTaken, countTaken, returnTaken] at hchanged

/-- Settles O48: the transitions of phase RXW take the answer offered, the others none. -/
theorem streamIsReadOneAnswerAtATime : Obligations.StreamIsReadOneAnswerAtATime := by
  intro s t hstep
  rcases step_transition hstep with ⟨-, rfl⟩ | ⟨hrst, ht⟩
  · exact .inl rfl
  · cases ht with
    | stored b hphase hread => exact .inr ⟨hphase, hrst, ⟨_, hread⟩, rfl⟩
    | ended k c rbuf rlen hphase hread =>
      exact .inr ⟨hphase, hrst, Option.isSome_iff_exists.mp hread, by simp [answerTaken]⟩
    | counted n hphase hread => exact .inr ⟨hphase, hrst, ⟨_, hread⟩, by simp [answerTaken]⟩
    | pushed enabled o hphase hread => exact .inr ⟨hphase, hrst, ⟨_, hread⟩, by simp [answerTaken]⟩
    | waited | ignored | listened | wrote | decoded | registered | writeFailed | writeDone | returned =>
      exact .inl (by simp [requestTaken, countTaken, returnTaken])

/-- Settles O49: a transition of phase RXW leaves the buffer or stores the byte answered, the others leave it. -/
theorem receiveBufferIsWrittenByFramingOnly : Obligations.ReceiveBufferIsWrittenByFramingOnly := by
  intro s t hstep
  rcases step_transition hstep with ⟨hrst, -⟩ | ⟨-, ht⟩
  · exact .inr (.inl hrst)
  · cases ht with
    | stored b hphase hread => exact .inr (.inr ⟨hphase, b, hread, rfl⟩)
    | ended k c rbuf rlen hphase _ hstored =>
      rw [terminal_rbuf]
      cases hstored with
      | nothing => exact .inl rfl
      | byte b hread => exact .inr (.inr ⟨hphase, b, hread, rfl⟩)
    | counted n hphase hread => exact .inr (.inr ⟨hphase, term, hread, by simp [answerTaken]⟩)
    | pushed enabled o hphase hread => exact .inr (.inr ⟨hphase, term, hread, by simp [answerTaken]⟩)
    | waited | ignored | listened | wrote | decoded | registered | writeFailed | writeDone | returned =>
      exact .inl (by simp [requestTaken, countTaken, returnTaken])

/-- Settles O50: only an accepted request that writes builds a packet, and hands it over; no transition writes the
parameters. -/
theorem transmitBufferIsWrittenByTheEncoderOnly : Obligations.TransmitBufferIsWrittenByTheEncoderOnly := by
  intro s t hstep
  rcases step_transition hstep with ⟨hrst, rfl⟩ | ⟨-, ht⟩
  · exact ⟨rfl, .inr (.inl hrst)⟩
  · cases ht with
    | wrote mode sh addr p hphase =>
      exact ⟨by simp [requestTaken], .inr (.inr ⟨hphase, rfl, by simp [requestTaken]⟩)⟩
    | waited | ignored | listened | decoded | registered | stored | ended | counted | pushed | writeFailed | writeDone
      | returned =>
      simp [requestTaken, answerTaken, countTaken, returnTaken]

/-! ## Output events (R37, R140, R267) -/

/-- The end of a framing emits one event. -/
theorem terminal_emits (k : Kind) (c : Byte) (s : State) : ∃ o, (terminal k c s).outputs = s.outputs ++ [o] := by
  rcases terminal_startFrame_or_finish k c s with h | h <;> rw [h] <;> simp

/-- So does a push message. -/
theorem deliverPush_emits (enabled : Bool) (o : Output) (s : State) :
    ∃ o', (deliverPush enabled o s).outputs = s.outputs ++ [o'] := by
  cases enabled <;> exact ⟨_, rfl⟩

/-- Settles O52: a transition emits one event, but for the wait and request code 0. -/
theorem stepsEmitAtMostOneEvent : Obligations.StepsEmitAtMostOneEvent := by
  intro s t hstep
  rcases step_transition hstep with ⟨-, rfl⟩ | ⟨-, ht⟩
  · exact .inl rfl
  · cases ht with
    | waited | ignored => exact .inl rfl
    | ended | counted => exact .inr (terminal_emits _ _ _)
    | pushed => exact .inr (deliverPush_emits _ _ _)
    | listened | registered | stored | writeFailed | writeDone | returned => exact .inr ⟨_, rfl⟩
    | wrote =>
      rw [issueWrite_outputs, buildPacket_outputs]
      exact .inr ⟨_, rfl⟩
    | decoded =>
      rw [finish_outputs, decodeReply_outputs]
      exact .inr ⟨_, rfl⟩

/-- An end of a framing that ends the operation emits its Done (R140). -/
theorem terminal_done {k : Kind} {c : Byte} {s : State} (h : (terminal k c s).phase = .idle) :
    (terminal k c s).outputs = s.outputs ++ [.done (terminal k c s).kind (terminal k c s).result] := by
  rcases terminal_startFrame_or_finish k c s with ht | ht
  · rw [ht] at h
    cases h
  · simp [ht]

theorem deliverPush_busy (enabled : Bool) (o : Output) (s : State) : (deliverPush enabled o s).phase ≠ .idle := by
  cases enabled <;> nofun

/-- Settles O53: of the transitions of a busy block only the end of a framing and a failed write end in IDLE. -/
theorem operationsEndWithDone : Obligations.OperationsEndWithDone := by
  intro s t hstep hbusy hidle hrst
  rcases step_transition hstep with ⟨hreset, -⟩ | ⟨-, ht⟩
  · exact absurd (hrst.symm.trans hreset) nofun
  · cases ht with
    | ended | counted => exact terminal_done hidle
    | writeFailed => rfl
    | waited => exact absurd hidle hbusy
    | stored b hphase => exact absurd (hphase.symm.trans hidle) nofun
    | pushed => exact absurd hidle (deliverPush_busy _ _ _)
    | ignored hphase | listened _ hphase | wrote _ _ _ _ hphase | decoded _ hphase | registered _ hphase =>
      exact absurd hphase hbusy
    | writeDone | returned => cases hidle

/-! ## Values and counts (R23, R29, R184, R233) -/

theorem success_unexpected (k : Kind) : success k 0xFA = false := by simp [success]

/-- The state shows a Reply of the shape's length, its fields decoded into the value registers (R214). -/
structure ShowsDecoded (sh : Shape) (t : State) : Prop where
  kind : t.kind = .reply
  rlen : t.rlen = requiredLength sh
  val0 : t.val0 = (withFields sh t).val0
  val1 : t.val1 = (withFields sh t).val1

/-- Fields read from a buffer that stays as it is are still those of the packet in it. -/
theorem showsDecoded_finish {sh : Shape} {s : State} (hkind : s.kind = .reply) (hlen : s.rlen = requiredLength sh) :
    ShowsDecoded sh (finish { withFields sh s with result := 0x00 }) := by
  cases sh <;> exact ⟨hkind, hlen, rfl, rfl⟩

/-- In an INQ the end of a framing leaves the values and is no success, or ends the operation with a Reply decoded. -/
theorem terminal_inq_cases (k : Kind) (c : Byte) {s : State} (hmode : s.mode = .inq) :
    (((terminal k c s).val0 = s.val0 ∧ (terminal k c s).val1 = s.val1) ∧
      ((terminal k c s).phase = .idle → success (terminal k c s).kind (terminal k c s).result = false)) ∨
    ((terminal k c s).phase = .idle ∧ (terminal k c s).result = 0x00 ∧ ShowsDecoded s.shapeR (terminal k c s)) := by
  rcases terminal_startFrame_or_finish k c s with h | h <;> rw [h]
  · exact .inl ⟨⟨rfl, rfl⟩, nofun⟩
  · rw [postCheck_inq (s := latch k c s) hmode]
    rcases postInq_cases (latch k c s) with ⟨hkind, hlen, hp⟩ | hp | ⟨hp, hfails⟩ <;> rw [hp]
    · exact .inr ⟨rfl, rfl, showsDecoded_finish hkind hlen⟩
    · exact .inl ⟨⟨rfl, rfl⟩, fun _ => success_unexpected k⟩
    · exact .inl ⟨⟨rfl, rfl⟩, fun _ => hfails⟩

/-- In every other mode it leaves the values. -/
theorem terminal_values (k : Kind) (c : Byte) {s : State} (hmode : s.mode ≠ .inq) :
    (terminal k c s).val0 = s.val0 ∧ (terminal k c s).val1 = s.val1 := by
  rcases terminal_startFrame_or_finish k c s with h | h <;> rw [h]
  · exact ⟨rfl, rfl⟩
  · by_cases hassign : s.mode = .assign
    · rw [postCheck_assign (s := latch k c s) hassign]
      rcases postAssign_cases (latch k c s) with hp | ⟨hp, -⟩ <;> rw [hp] <;> exact ⟨rfl, rfl⟩
    · have hunchecked : s.mode = .recv ∨ s.mode = .wait ∨ s.mode = .send := by cases hm : s.mode <;> simp_all
      rw [postCheck_unchecked (s := latch k c s) hunchecked]
      exact ⟨rfl, rfl⟩

/-- An end of a framing that changes a value register is the end of an INQ with a Reply decoded. -/
theorem terminal_decodes {k : Kind} {c : Byte} {s : State}
    (h : (terminal k c s).val0 ≠ s.val0 ∨ (terminal k c s).val1 ≠ s.val1) :
    s.mode = .inq ∧ (terminal k c s).phase = .idle ∧ (terminal k c s).result = 0x00 ∧ k = .reply := by
  have hkept : ¬((terminal k c s).val0 = s.val0 ∧ (terminal k c s).val1 = s.val1) := not_and_or.mpr h
  by_cases hmode : s.mode = .inq
  · rcases terminal_inq_cases k c hmode with ⟨hsame, -⟩ | ⟨hidle, hresult, hshows⟩
    · exact absurd hsame hkept
    · exact ⟨hmode, hidle, hresult, (terminal_kind k c s).symm.trans hshows.kind⟩
  · exact absurd (terminal_values k c hmode) hkept

/-- Settles O51: of the transitions a DECODE that fits, and the end of a framing by `terminal_decodes`, write the value
registers. -/
theorem decodedValuesAreWrittenByTheDecoderOnly : Obligations.DecodedValuesAreWrittenByTheDecoderOnly := by
  intro s t hstep hchanged
  rcases step_transition hstep with ⟨hrst, -⟩ | ⟨-, ht⟩
  · exact .inl hrst
  · refine .inr ?_
    cases ht with
    | decoded r hphase hr hop =>
      cases hfits : fitsShape (shapeOfCode r.shape) (requestTaken s) with
      | true =>
        obtain ⟨hkind, -⟩ := (fitsShape_iff _ _).mp hfits
        refine ⟨rfl, by simpa using hkind, ?_, .inl ⟨hphase, r, hr, hop⟩⟩
        rw [decodeReply_fits _ _ hfits]
        rfl
      | false =>
        rw [decodeReply_fails _ _ hfits] at hchanged
        simp [requestTaken] at hchanged
    | ended k c rbuf rlen hphase =>
      obtain ⟨hmode, hidle, hresult, rfl⟩ := terminal_decodes hchanged
      exact ⟨hidle, terminal_kind _ _ _, hresult, .inr ⟨hphase, hmode⟩⟩
    | counted => exact absurd (terminal_decodes hchanged).2.2.2 nofun
    | waited | ignored | listened | wrote | registered | stored | pushed | writeFailed | writeDone | returned =>
      simp [requestTaken, answerTaken, countTaken, returnTaken] at hchanged

/-- The packet that carries a count is the four bytes `88 30 n FF` (R156). -/
theorem rxPacket_of_counted {s : State} (hbuf : s.rlen < s.rbuf.length) {n : Byte}
    (h : classify (rxPacket (storeByte term s)) = .addrEnumReply n) : rxPacket s = [0x88, 0x30, n] := by
  obtain ⟨b, hb⟩ := classify_addrEnumReply_inv h
  rw [rxPacket_storeByte term hbuf] at hb
  simpa using congrArg List.dropLast hb

/-- Settles O46: of the transitions only `counted` writes the count. -/
theorem cameraCountHasOneWriter : Obligations.CameraCountHasOneWriter := by
  intro s t hinv hstep hchanged
  rcases step_transition hstep with ⟨hrst, rfl⟩ | ⟨-, ht⟩
  · exact .inl ⟨hrst, rfl⟩
  · cases ht with
    | counted n hphase hread hroom hpacket hlo hhi =>
      have hbuf : s.rlen < s.rbuf.length := hroom.trans_eq hinv.buffers.rbuf_length.symm
      refine .inr ⟨hphase, n, hread, rxPacket_of_counted (s := answerTaken s) hbuf hpacket, hlo, hhi, ?_⟩
      rw [terminal_camcnt]
      exact toNat_count hhi
    | waited | ignored | listened | wrote | decoded | registered | stored | ended | pushed | writeFailed | writeDone
      | returned => simp [requestTaken, answerTaken, countTaken, returnTaken] at hchanged

/-- The transitions that can end an operation of a busy block: the end of a framing, an enumeration reply with its count
recorded, or a write that fell short. -/
theorem Transition.end_cases {s t : State} (ht : Transition s t) (hbusy : s.phase ≠ .idle) (hidle : t.phase = .idle) :
    (∃ k c u, t = terminal k c u ∧ u.mode = s.mode ∧ u.shapeR = s.shapeR ∧
      (k = .addrEnum → 1 ≤ u.camcnt.toNat ∧ u.camcnt.toNat ≤ 7)) ∨
    t.kind = .writeFail := by
  cases ht with
  | ended k c rbuf rlen _ _ _ hends => exact .inl ⟨k, c, _, rfl, rfl, rfl, fun hk => absurd hk hends.kind_ne.2.2⟩
  | counted n _ _ _ _ hlo hhi =>
    have hcount : 1 ≤ n.toNat - 1 ∧ n.toNat - 1 ≤ 7 := by omega
    exact .inl ⟨_, _, _, rfl, rfl, rfl, fun _ => (toNat_count hhi).symm ▸ hcount⟩
  | writeFailed => exact .inr rfl
  | waited => exact absurd hidle hbusy
  | stored b hphase => exact absurd (hphase.symm.trans hidle) nofun
  | pushed => exact absurd hidle (deliverPush_busy _ _ _)
  | ignored hphase | listened _ hphase | wrote _ _ _ _ hphase | decoded _ hphase | registered _ hphase =>
    exact absurd hphase hbusy
  | writeDone | returned => cases hidle

/-- A write that fell short is no success (R43). -/
theorem success_writeFail (c : Byte) : success .writeFail c = false := by simp [success]

/-- In an ASSIGN the end of a framing that is a success is an enumeration reply (R233). -/
theorem terminal_assign_success {k : Kind} {c : Byte} {s : State} (hmode : s.mode = .assign)
    (hidle : (terminal k c s).phase = .idle) (h : success (terminal k c s).kind (terminal k c s).result = true) :
    k = .addrEnum := by
  rcases terminal_startFrame_or_finish k c s with ht | ht <;> rw [ht] at h hidle
  · cases hidle
  · rw [postCheck_assign (s := latch k c s) hmode] at h
    rcases postAssign_cases (latch k c s) with hp | ⟨hp, henum⟩ <;> rw [hp] at h
    · exact absurd ((success_unexpected k).symm.trans h) nofun
    · exact henum h

/-- Settles O54: an ASSIGN ends with a framing, whose success is an enumeration reply, or with a failed write. -/
theorem assignSuccessMeansACount : Obligations.AssignSuccessMeansACount := by
  intro s t _ hstep hbusy hidle hrst hmode hsuccess
  rcases step_transition hstep with ⟨hreset, -⟩ | ⟨-, ht⟩
  · exact absurd (hrst.symm.trans hreset) nofun
  · rcases ht.end_cases hbusy hidle with ⟨k, c, u, rfl, hu, -, hcount⟩ | hfailed
    · obtain rfl := terminal_assign_success (hu.trans hmode) hidle hsuccess
      rw [terminal_kind, terminal_camcnt]
      exact ⟨rfl, hcount rfl⟩
    · rw [hfailed, success_writeFail] at hsuccess
      cases hsuccess

/-- Settles O55: an INQ ends with a framing, whose success is a Reply decoded, or with a failed write. -/
theorem inqSuccessMeansDecodedValues : Obligations.InqSuccessMeansDecodedValues := by
  intro s t hstep hbusy hidle hrst hmode hsuccess
  rcases step_transition hstep with ⟨hreset, -⟩ | ⟨-, ht⟩
  · exact absurd (hrst.symm.trans hreset) nofun
  · rcases ht.end_cases hbusy hidle with ⟨k, c, u, rfl, hu, hshape, -⟩ | hfailed
    · rcases terminal_inq_cases k c (hu.trans hmode) with ⟨-, hfails⟩ | ⟨-, -, hshows⟩
      · exact absurd ((hfails hidle).symm.trans hsuccess) nofun
      · rw [hshape] at hshows
        exact ⟨hshows.kind, hshows.rlen, hshows.val0, hshows.val1⟩
    · rw [hfailed, success_writeFail] at hsuccess
      cases hsuccess

end Sys2Proof.Proofs
end

section
/-! The host operations (spec/40_framer.md R130; spec/42_handshake.md R180; spec/43_encoder.md R190, R191;
spec/44_decoder.md R216; spec/45_control.md R230, R235; spec/30_encoding.md R92 to R97, R116): what each does in IDLE,
what the rows that stand for them do, and the statements O1, O3 to O6, O8, O9, O11, O12, O17 and O33. -/

namespace Sys2Proof.Proofs

open Sys2Proof.Config Sys2Proof.Machine

/-! ## RECV, WAIT, DECODE, SETH and code 0 (R36, R130, R180, R216, R235) -/

/-- Settles O1: both begin a framing in their mode. -/
theorem recvAndWaitStartFraming : Obligations.RecvAndWaitStartFraming :=
  fun s hidle => ⟨whenIdle_idle s _ hidle, whenIdle_idle s _ hidle⟩

/-- Settles O9: the operation is done in the step that accepts it. -/
theorem sethWritesTheEnablesOnly : Obligations.SethWritesTheEnablesOnly := by
  intro s i n hidle
  refine (whenIdle_idle s _ hidle).trans ?_
  simp [finish, emit, hidle]

/-- What a shape takes, by the length it requires (R110, R217, R218). -/
theorem fitsShape_iff_requiredLength (sh : Shape) (s : State) :
    fitsShape sh s = true ↔ s.kind = .reply ∧ s.rlen = requiredLength sh := by
  rw [fitsShape_iff, requiredLength_eq]

/-- A Reply of the required length is decoded (R214). -/
theorem decodeReply_of_reply {sh : Shape} {s : State} (hkind : s.kind = .reply) (hlen : s.rlen = requiredLength sh) :
    decodeReply sh s = { withFields sh s with result := 0x00 } := by
  rw [decodeReply_fits sh s ((fitsShape_iff_requiredLength sh s).mpr ⟨hkind, hlen⟩), writeFields_eq_withFields]

/-- Anything else gives UnexpectedPacket (R215). -/
theorem decodeReply_of_not_reply {sh : Shape} {s : State} (h : s.kind ≠ .reply ∨ s.rlen ≠ requiredLength sh) :
    decodeReply sh s = { s with result := 0xFA } := by
  refine decodeReply_fails sh s (Bool.eq_false_iff.mpr fun hfits => ?_)
  exact not_and_or.mpr h ((fitsShape_iff_requiredLength sh s).mp hfits)

/-- DECODE in IDLE is the shape's decode and the end of the operation (R216). -/
theorem exec_decode_of_idle {s : State} (hidle : s.phase = .idle) (sh : Shape) :
    exec (.decode sh) s = .next (finish (decodeReply sh s)) := whenIdle_idle s _ hidle

/-- Settles O8: the decode by its two outcomes, and the Done that follows. -/
theorem decodeAnswersAtOnce : Obligations.DecodeAnswersAtOnce := by
  intro s sh hidle
  rw [exec_decode_of_idle hidle]
  constructor
  · intro hkind hlen
    rw [decodeReply_of_reply hkind hlen]
    cases sh <;> simp [finish, emit, withFields, hkind, hidle]
  · intro h
    rw [decodeReply_of_not_reply h]
    simp [finish, emit, hidle]

/-- Settles O12: code 0 decodes to NOP, which answers the state. -/
theorem codeZeroChangesNothing : Obligations.CodeZeroChangesNothing := by
  refine fun s => ⟨rfl, fun r hop => ?_⟩
  have hnop : decodeReq r = .nop := by simp [decodeReq, hop]
  rw [onEvent_hostReq, hnop]
  rfl

/-! ## The requests that write (R190, R191, R230) -/

section
variable {s : State} (hidle : s.phase = .idle) (hbuf : s.tbuf.length = s.cfg.maxLen)
include hidle hbuf

/-- INQ in IDLE latches its mode and shape and writes its packet (R191). -/
theorem requestInquiry_eq_written (addr : Byte) (sh : Shape) (p : List Byte) (hfits : p.length + 2 ≤ s.cfg.maxLen) :
    requestInquiry addr sh p s = .next (written (encodePacket addr p) { s with mode := .inq, shapeR := sh }) :=
  (whenIdle_idle s _ hidle).trans (buildAndWrite_eq_written addr p hbuf hfits)

/-- ASSIGN in IDLE latches its mode and writes the parameter payload to the broadcast address (R230, R231). -/
theorem requestAssign_eq_written (hfits : s.cfg.addrsetPayload.length + 2 ≤ s.cfg.maxLen) :
    requestAssign s = .next (written (encodePacket addrBcast s.cfg.addrsetPayload) { s with mode := .assign }) :=
  (whenIdle_idle s _ hidle).trans (buildAndWrite_eq_written addrBcast _ hbuf hfits)

end

/-- A packet to an address of four bits begins with the nibble 8 and the address (R93). -/
theorem encodePacket_addrOperand (a : Nibble) (p : List Byte) :
    encodePacket (addrOperand a) p = ((8#4 ++ a : Byte) :: p) ++ [0xFF] := by
  rw [encodePacket, destByte_addrOperand]
  rfl

/-- Settles O3: INQ requests the packet of its expanded items. -/
theorem inqLatchesTheShapeAndWrites : Obligations.InqLatchesTheShapeAndWrites :=
  fun _ addr sh items hidle hbuf hfits => requestInquiry_eq_written hidle hbuf addr sh (expand items) hfits

/-- Settles O4: the destination byte of the broadcast address is `88`. -/
theorem assignWritesTheEnumerationPacket : Obligations.AssignWritesTheEnumerationPacket :=
  fun _ hidle hbuf hfits => requestAssign_eq_written hidle hbuf hfits

/-- Settles O5: each format is one of the three requests with its row's payload, to an address of four bits. -/
theorem transmittedFormatsRunTheirOperation : Obligations.TransmittedFormatsRunTheirOperation := by
  intro s a k sh p op hidle hbuf
  refine ⟨fun h => ?generic, fun h => ?command, fun h => ?inquiry, fun h => ?addressSet, fun h => ?cancel⟩
  case generic =>
    rw [← encodePacket_addrOperand]
    exact requestSend_eq_written _ p hidle hbuf h
  case command =>
    rw [← encodePacket_addrOperand]
    exact requestSend_eq_written _ (typeCmd :: op) hidle hbuf h
  case inquiry =>
    rw [← encodePacket_addrOperand]
    exact requestInquiry_eq_written hidle hbuf _ sh (typeInq :: op) h
  case addressSet => exact requestAssign_eq_written hidle hbuf h
  case cancel =>
    have hwritten := requestSend_eq_written (addrOperand a) [joinNib 2#4 k] hidle hbuf h
    rw [encodePacket_addrOperand] at hwritten
    exact hwritten

/-- The abbreviation's cancel payload is the one of the format (R116, R238; log 23). -/
theorem joinNib_two_eq_or (k : Nibble) : joinNib 2#4 k = 0x20 ||| k.setWidth 8 := by revert k; decide

/-- Settles O6: each abbreviation is one of the two requests with its expansion's payload. -/
theorem abbreviationsRunTheirExpansion : Obligations.AbbreviationsRunTheirExpansion := by
  intro s addr k sh items hidle hbuf
  refine ⟨fun h => ?command, fun h => ?inquiry, fun h => ?cancel, fun h => ?addrset⟩
  case command => exact requestSend_eq_written addr (typeCmd :: expand items) hidle hbuf h
  case inquiry => exact requestInquiry_eq_written hidle hbuf addr sh (typeInq :: expand items) h
  case cancel =>
    rw [← joinNib_two_eq_or]
    exact requestSend_eq_written addr [joinNib 2#4 k] hidle hbuf h
  case addrset => exact requestSend_eq_written addrBcast [0x30, 0x01] hidle hbuf h

/-! ## Rows and requests (R36, R116, R118, R282; log 9, log 11) -/

/-- The request SEND with literal items sends their bytes (R98). -/
theorem exec_decodeReq_send (addr : Byte) (p : List Byte) (s : State) :
    exec (decodeReq { op := 3#3, addr := addr, items := literalItems p }) s = requestSend addr p s :=
  congrArg (requestSend addr · s) (expand_literalItems p)

/-- The request INQ with the code of a shape latches that shape (R191, R210). -/
theorem decodeReq_inq (addr : Byte) (sh : Shape) (items : List Item) :
    decodeReq { op := 4#3, addr := addr, shape := shapeCode sh, items := items } = .inq addr sh items := by
  simp [decodeReq]

/-- The request that performs a row, but for a nibble byte and a shape, runs as the row: of the host operations the
request is read back, and the others send what they write. -/
theorem exec_decodeReq_requestOf {i : Instr} {r : ReqSignals} (h : requestOf i = some r)
    (hnibble : ∀ n, i ≠ .nibbleByte n) (hshape : ∀ sh, i ≠ shapeInstr sh) (s : State) :
    exec (decodeReq r) s = exec i s := by
  cases i with
  | nibbleByte n => exact absurd rfl (hnibble n)
  | shapeS4 => exact absurd rfl (hshape .s4)
  | shapeS16 => exact absurd rfl (hshape .s16)
  | shapeS16x2 => exact absurd rfl (hshape .s16x2)
  | shapeS32 => exact absurd rfl (hshape .s32)
  | reply | ack | pushIr | pushNet | undersized | error | addrEnumReply | broadcast | unknown | oversized | timeout
    | transportErr => cases h
  | recv | wait | send | assign | seth | nop => cases h; rfl
  | inq => cases h; rw [decodeReq_inq]
  | decode => cases h; simp [decodeReq]
  | txGeneric | command | cancel => cases h; exact exec_decodeReq_send _ _ s
  | inquiry addr sh op =>
    cases h
    rw [decodeReq_inq]
    exact congrArg (requestInquiry _ sh · s) (expand_literalItems (typeInq :: op))
  | addressSet | commandPseudo => cases h; rfl
  | inquiryPseudo => cases h; rw [decodeReq_inq]; rfl
  | cancelPseudo | addrsetPseudo => cases h; exact exec_decodeReq_send _ _ s

/-- A format is no row of the decoder. -/
theorem ne_shapeInstr_of_requestOf {i : Instr} {r : ReqSignals} (h : requestOf i = some r) (hop : r.op ≠ 5#3)
    (sh : Shape) : i ≠ shapeInstr sh := by
  rintro rfl
  cases sh <;> cases h <;> exact hop rfl

/-- Settles O33: the formats are rows whose request is the one written out; DECODE in IDLE runs its shape's row. -/
theorem rowsRunThroughTheirRequests : Obligations.RowsRunThroughTheirRequests := by
  intro s
  refine ⟨fun a p => ?generic, fun a p => ?command, fun a sh p => ?inquiry,
    fun i r h hnibble hshape => exec_decodeReq_requestOf h hnibble hshape s, fun sh hidle => ?decode⟩
  case generic =>
    exact exec_decodeReq_requestOf (i := .txGeneric a p) rfl nofun (ne_shapeInstr_of_requestOf rfl (by simp)) s
  case command =>
    exact exec_decodeReq_requestOf (i := .command a p) rfl nofun (ne_shapeInstr_of_requestOf rfl (by simp)) s
  case inquiry =>
    exact exec_decodeReq_requestOf (i := .inquiry a sh p) rfl nofun (ne_shapeInstr_of_requestOf rfl (by simp)) s
  case decode => exact ⟨_, exec_shapeInstr sh s, exec_decode_of_idle hidle sh⟩

/-- Settles O11: a row runs as its request, and no request is accepted outside IDLE; the framer's outcomes ask for
RXW. -/
theorem rowsWaitForTheirPhase : Obligations.RowsWaitForTheirPhase := by
  refine fun s => ⟨fun i r hbusy h hnibble hshape => ?request, fun hphase => ⟨?empty, ?error⟩⟩
  case request => rw [← exec_decodeReq_requestOf h hnibble hshape, exec_decodeReq_of_not_idle r hbusy]
  case empty => exact whenReading_other s _ hphase
  case error => exact whenReading_other s _ hphase

/-- Settles O17: a nibble below a zero nibble is the nibble widened, and past MAXLEN there is no place for it. -/
theorem nibbleByteJoinsThePacket : Obligations.NibbleByteJoinsThePacket := by
  refine fun s n => ⟨fun hroom => ?stored, fun hfull => if_neg (Nat.not_lt.mpr hfull)⟩
  have hbyte : joinNib 0#4 n = n.setWidth 8 := by revert n; decide
  rw [exec_nibbleByte_of_lt n hroom, hbyte]
  rfl

end Sys2Proof.Proofs
end

section
/-! The outcomes of received packets (spec/41_classifier.md R150 to R158; spec/42_handshake.md R181, R184;
spec/45_control.md R233), the decoder as a function (spec/44_decoder.md R201, R215, R220), and the statements O14 to
O16, O19 to O23 and O26. -/

namespace Sys2Proof.Proofs

open Sys2Proof.Config Sys2Proof.Machine

/-! ## The end of every operation (R139, R181, R184, R233, R269) -/

/-- Settles O19: none of these kinds is a success, so no post-check replaces the code. -/
theorem failuresEndEveryOperation : Obligations.FailuresEndEveryOperation := by
  intro s first hdr code k rest
  have hend (k : Kind) (hk : success k 0x00 = false) (hack : k ≠ .ack) (c : Byte) :
      (Host.Outcome.next (terminal k c s) : Answer) = .next (ended k c s) :=
    congrArg _ (terminal_of_not_success hk hack c s)
  exact ⟨exec_undersized first s, hend .error rfl nofun code, hend .unknown rfl nofun codeUnknown,
    hend .oversized rfl nofun codeOversized, onEvent_empty_ends, onEvent_error_ends⟩

/-- Settles O20: these modes have no post-check. -/
theorem repliesEndUncheckedOperations : Obligations.RepliesEndUncheckedOperations := by
  intro s hdr k p rest hmode
  have hend (k : Kind) (hack : k ≠ .ack) :
      (Host.Outcome.next (terminal k codeSuccess s) : Answer) = .next (ended k 0x00 s) := by
    rw [terminal_finishes codeSuccess fun hk => absurd hk hack,
      postCheck_unchecked (s := latch k codeSuccess s) hmode, finish_latch, codeSuccess]
  exact ⟨hend .reply nofun, hend .broadcast nofun⟩

/-- In every mode but RECV an Acknowledge is latched and the next packet started (R181). -/
theorem exec_ack_absorbed {s : State} (hmode : s.mode ≠ .recv) (hdr : Byte) (k : Nibble) :
    exec (.ack hdr k) s = .next (startFrame (latch .ack codeAcknowledge s)) :=
  congrArg _ (terminal_absorbs codeAcknowledge s hmode)

/-- Settles O21: the sequencer asks for the mode first and then for the Acknowledge. -/
theorem acknowledgeEndsRecvOnly : Obligations.AcknowledgeEndsRecvOnly := by
  refine fun s hdr k => ⟨fun hmode => ?ends, fun hmode => ?absorbed⟩
  case ends => exact congrArg _ (terminal_recv .ack codeAcknowledge s hmode)
  case absorbed => exact exec_ack_absorbed hmode hdr k

/-- In an INQ every outcome but an Acknowledge ends the operation with `PostInq` (R181). -/
theorem terminal_inq {k : Kind} {s : State} (hmode : s.mode = .inq) (hack : k ≠ .ack) (c : Byte) :
    terminal k c s = finish (postInq (latch k c s)) := by
  rw [terminal_finishes c fun hk => absurd hk hack, postCheck_inq (s := latch k c s) hmode]

/-- In an ASSIGN, with `PostAssign`. -/
theorem terminal_assign {k : Kind} {s : State} (hmode : s.mode = .assign) (hack : k ≠ .ack) (c : Byte) :
    terminal k c s = finish (postAssign (latch k c s)) := by
  rw [terminal_finishes c fun hk => absurd hk hack, postCheck_assign (s := latch k c s) hmode]

/-- Ending with fields read and ending with a result are the statements' `ended`. -/
theorem finish_withFields_latch (sh : Shape) (s : State) :
    finish { withFields sh (latch .reply codeSuccess s) with result := 0x00 } =
      ended .reply 0x00 (withFields sh s) := by
  cases sh <;> rfl

/-- Settles O22: a Reply by the two outcomes of its decode; the code of the other successes is replaced. -/
theorem inquiryDecodesItsReply : Obligations.InquiryDecodesItsReply := by
  intro s hdr n k p rest hmode
  have hreply : terminal .reply codeSuccess s = finish (decodeReply s.shapeR (latch .reply codeSuccess s)) :=
    terminal_inq (k := .reply) hmode nofun codeSuccess
  have hbroadcast : terminal .broadcast codeSuccess s = ended .broadcast 0xFA s :=
    terminal_inq (k := .broadcast) hmode nofun codeSuccess
  refine ⟨fun hlen => ?fits, fun hlen => ?fails, congrArg _ hbroadcast, fun hlo hhi => ?enum⟩
  case fits =>
    rw [decodeReply_of_reply (s := latch .reply codeSuccess s) rfl hlen, finish_withFields_latch] at hreply
    exact congrArg _ hreply
  case fails =>
    rw [decodeReply_of_not_reply (s := latch .reply codeSuccess s) (.inr hlen)] at hreply
    exact congrArg _ hreply
  case enum => rw [exec_addrEnumReply_of_count hlo hhi, if_pos hmode]

/-- Settles O23: `PostAssign` replaces the code of a Reply and of a Broadcast, and leaves the enumeration reply. -/
theorem enumerationNeedsACount : Obligations.EnumerationNeedsACount := by
  intro s hdr n k p rest hmode
  have hreply : terminal .reply codeSuccess s = ended .reply 0xFA s :=
    terminal_assign (k := .reply) hmode nofun codeSuccess
  have hbroadcast : terminal .broadcast codeSuccess s = ended .broadcast 0xFA s :=
    terminal_assign (k := .broadcast) hmode nofun codeSuccess
  refine ⟨congrArg _ hreply, congrArg _ hbroadcast, fun hlo hhi => ?_⟩
  rw [exec_addrEnumReply_of_count hlo hhi, if_neg (by simp [hmode])]

/-! ## Push messages (R152, R159, R264; log 21) -/

/-- The index on the 4-bit port is in range, so its two's complement has its value (R40, R152). -/
theorem camPort_toInt (hdr : Byte) : (camPort hdr).toInt = ((hdr >>> 4).toNat : Int) - 8 := by
  have hlt : (hdr >>> 4).toNat < 16 := by
    rw [BitVec.toNat_ushiftRight, Nat.shiftRight_eq_div_pow]
    omega
  rw [camPort, camIndex, BitVec.toInt_ofInt]
  exact Int.bmod_eq_of_le (by omega) (by omega)

/-- Settles O26: the two enables select between delivery and the next packet. -/
theorem pushPacketsAreDeliveredOrDropped : Obligations.PushPacketsAreDeliveredOrDropped := by
  intro s hdr i k
  have hdelivered (o : Output) : deliverPush true o s = delivered o s := rfl
  have hdropped (o : Output) : deliverPush false o s = framing s := rfl
  refine ⟨camPort hdr, camPort_toInt hdr, fun hon => ?_, fun hoff => ?_, fun hon => ?_, fun hoff => ?_⟩
  · rw [← hdelivered, ← hon]; rfl
  · rw [← hdropped (.irEvent (camPort hdr) i k), ← hoff]; rfl
  · rw [← hdelivered, ← hon]; rfl
  · rw [← hdropped (.netEvent (camPort hdr)), ← hoff]; rfl

/-! ## The decoder (R201, R215, R220; log 11) -/

/-- Settles O14: the decode of each shape by what it does with anything but a Reply of its length. -/
theorem otherPacketsFailTheShapes : Obligations.OtherPacketsFailTheShapes := by
  intro s
  have hfails (sh : Shape) (h : s.kind ≠ .reply ∨ s.rlen ≠ requiredLength sh) :
      exec (shapeInstr sh) s = .next { s with result := 0xFA } := by
    rw [exec_shapeInstr, decodeReply_of_not_reply h]
  exact ⟨hfails .s4, hfails .s16, fun h => ⟨hfails .s16x2 h, hfails .s32 h⟩⟩

/-- Settles O15: a SHAPE row is the decode, whose two outcomes are those of the function of the packet. -/
theorem decoderIsTheDecodeFunction : Obligations.DecoderIsTheDecodeFunction := by
  intro s sh hkind hlen
  refine ⟨fun h => ?none, fun v0 v1 h => ?some⟩
  case none => rw [exec_shapeInstr, decodeReply_of_decodeFn_none hlen h]
  case some => rw [exec_shapeInstr, decodeReply_of_decodeFn_some hkind hlen h]

@[simp] theorem length_nibbleBytes (n v : Nat) : (nibbleBytes n v).length = n := by simp [nibbleBytes]

/-- The bytes of a number within a buffer. -/
theorem byteAt_nibbleBytes (pre rest : List Byte) {n k : Nat} (v : Nat) (hk : k < n) :
    byteAt (pre ++ nibbleBytes n v ++ rest) (pre.length + k) = BitVec.ofNat 8 ((v >>> (4 * (n - 1 - k))) % 16) := by
  have hin : k < (nibbleBytes n v).length := by simpa using hk
  rw [byteAt, List.append_assoc, List.getD_append_right _ _ _ _ (Nat.le_add_right _ _), Nat.add_sub_cancel_left,
    List.getD_append _ _ _ _ hin]
  simp [nibbleBytes, hk]

/-- The first `k` digits of a number of `n` digits are its leading part (R66). -/
theorem digitsAt_nibbleBytes_of_le (pre rest : List Byte) (n v : Nat) {k : Nat} (hk : k ≤ n) :
    digitsAt (pre ++ nibbleBytes n v ++ rest) pre.length k = v / 16 ^ (n - k) % 16 ^ k := by
  induction k with
  | zero => simp [digitsAt, Nat.mod_one]
  | succ k ih =>
    have hshift : v >>> (4 * (n - 1 - k)) = v / 16 ^ (n - (k + 1)) := by
      rw [Nat.shiftRight_eq_div_pow, Nat.pow_mul, Nat.sub_sub, Nat.add_comm 1 k]
    have hdigit : (BitVec.ofNat 8 ((v >>> (4 * (n - 1 - k))) % 16)).toNat % 16 = v / 16 ^ (n - (k + 1)) % 16 := by
      rw [hshift, BitVec.toNat_ofNat]
      omega
    have hlead : v / 16 ^ (n - k) = v / 16 ^ (n - (k + 1)) / 16 := by
      rw [Nat.div_div_eq_div_mul, ← Nat.pow_succ]
      congr 2
      omega
    rw [digitsAt, ih (by omega), byteAt_nibbleBytes pre rest v hk, hdigit, hlead, Nat.pow_succ', Nat.mod_mul]
    omega

/-- The digits of a word of `4 * n` bits sent as nibble bytes are read back as its value (R201). -/
theorem digitsAt_nibbleBytes {w n i : Nat} (v : BitVec w) (hw : 2 ^ w = 16 ^ n) (pre rest : List Byte)
    (hi : pre.length = i) : digitsAt (pre ++ nibbleBytes n v.toNat ++ rest) i n = v.toNat := by
  rw [← hi, digitsAt_nibbleBytes_of_le pre rest n v.toNat le_rfl, Nat.sub_self, Nat.pow_zero, Nat.div_one,
    Nat.mod_eq_of_lt (hw ▸ v.isLt)]

/-- Settles O16: the Reply is decoded, and its digits are those the numbers were split into. -/
theorem numbersSurviveTheWire : Obligations.NumbersSurviveTheWire := by
  intro s hdr k rest n v a b w hkind
  refine ⟨fun hlen hbuf => ?n4, fun hlen hbuf => ?n16, fun hlen hbuf => ?n32, fun hlen hbuf => ?n16x2⟩
  case n4 =>
    have hdigits : digitsAt s.rbuf 2 1 = n.toNat := by
      rw [hbuf, expand_singleton]
      exact digitsAt_nibbleBytes n rfl [hdr, 5#4 ++ k] (0xFF :: rest) rfl
    refine (exec_shapeInstr_of_reply .s4 hkind hlen).trans ?_
    rw [withFields, hdigits, BitVec.ofNat_toNat]
  case n16 =>
    have hdigits : digitsAt s.rbuf 2 4 = v.toNat := by
      rw [hbuf, expand_singleton]
      exact digitsAt_nibbleBytes v rfl [hdr, 5#4 ++ k] (0xFF :: rest) rfl
    refine (exec_shapeInstr_of_reply .s16 hkind hlen).trans ?_
    rw [withFields, hdigits, BitVec.ofNat_toNat]
  case n32 =>
    have hdigits : digitsAt s.rbuf 2 8 = w.toNat := by
      rw [hbuf, expand_singleton]
      exact digitsAt_nibbleBytes w rfl [hdr, 5#4 ++ k] (0xFF :: rest) rfl
    refine (exec_shapeInstr_of_reply .s32 hkind hlen).trans ?_
    rw [withFields, hdigits, BitVec.ofNat_toNat, BitVec.setWidth_eq]
  case n16x2 =>
    have hfirst : digitsAt s.rbuf 2 4 = a.toNat := by
      rw [hbuf]
      exact digitsAt_nibbleBytes (n := 4) a rfl [hdr, 5#4 ++ k] (nibbleBytes 4 b.toNat ++ 0xFF :: rest) rfl
    have hsecond : digitsAt s.rbuf 6 4 = b.toNat := by
      rw [hbuf]
      exact digitsAt_nibbleBytes (n := 4) b rfl (hdr :: (5#4 ++ k) :: nibbleBytes 4 a.toNat) (0xFF :: rest) rfl
    refine (exec_shapeInstr_of_reply .s16x2 hkind hlen).trans ?_
    rw [withFields, hfirst, hsecond, BitVec.ofNat_toNat, BitVec.ofNat_toNat, BitVec.setWidth_eq]

end Sys2Proof.Proofs
end

section
/-! The start of a framing and its bytes (spec/40_framer.md R131 to R138; spec/42_handshake.md R181; spec/43_encoder.md
R197), the step as a function of its event, and the statements O27, O29, O32, O42 and O44. -/

namespace Sys2Proof.Proofs

open Sys2Proof.Config Sys2Proof.Machine

/-- Settles O29: the answer to the write is the whole step, and a complete one starts a frame. -/
theorem completeWriteStartsTheHandshake : Obligations.CompleteWriteStartsTheHandshake := by
  intro s w hphase hw
  rw [onEvent_txRsp, writeAnswered_whole hphase hw, startFrame_eq_framing]

/-- Settles O27: the byte joins the packet in the buffer, and the three cases are those of `onEvent_byte`. -/
theorem bytesAreStoredAndCounted : Obligations.BytesAreStoredAndCounted := by
  intro s b hphase hroom hbuf
  have hpacket : rxPacket (storeByte b s) = s.rbuf.take s.rlen ++ [b] := rxPacket_storeByte b (hbuf ▸ hroom)
  rw [onEvent_byte b s hphase hroom, hpacket]
  refine ⟨fun hb => ?packet, fun hb hfull => ?oversized, fun hb hmore => ?more⟩
  case packet =>
    subst hb
    exact if_pos rfl
  case oversized =>
    refine (if_neg hb).trans ((if_pos hfull).trans ?_)
    rw [← hfull]
    exact congrArg _ (terminal_of_not_success (k := .oversized) rfl nofun _ _)
  case more =>
    exact (if_neg hb).trans (if_neg hmore.ne)

/-- Settles O42: from the start of a packet the packet in the buffer is the whole framing. -/
theorem stepsComputeTheFramingFunction : Obligations.StepsComputeTheFramingFunction := by
  intro s out bytes rest hlegal hbuffers hphase hrlen hrst h
  have hframed : framed out bytes rest s =
      { s with rbuf := bytes ++ s.rbuf.drop bytes.length, rlen := bytes.length, rxStream := rest,
               outputs := s.outputs ++ List.replicate (frameReads out bytes) .rxReq } := by
    simp [framed, rxPacket, hrlen]
  exact (PacketStart.run_frame ⟨hlegal, hbuffers, hphase, hrlen, hrst⟩ h).trans (congrArg _ hframed)

/-! ## The step and its event (R24, R36, R79, R141; log 4, log 7) -/

/-- In IDLE the step runs the operation of the request presented. -/
theorem step_of_request {s : State} {r : ReqSignals} (hlegal : s.cfg.legal) (hrst : resetSampled s = false)
    (hphase : s.phase = .idle) (hr : s.requests.head? = some r) :
    step s = exec (decodeReq r) (requestTaken s) := by
  have hnext : nextEvent s = some (.hostReq r, requestTaken s) := by simp [nextEvent, hrst, hphase, hr, requestTaken]
  rw [step_event hlegal hnext, onEvent_hostReq]

/-- In RXW the step accepts the transport's answer. -/
theorem step_of_answer {s : State} {a : RxAnswer} (hlegal : s.cfg.legal) (hrst : resetSampled s = false)
    (hphase : s.phase = .rxw) (ha : s.rxStream.head? = some a) : step s = onEvent (.rxRsp a) (answerTaken s) := by
  have hnext : nextEvent s = some (.rxRsp a, answerTaken s) := by simp [nextEvent, hrst, hphase, ha, answerTaken]
  exact step_event hlegal hnext

/-- Settles O32: the event is the request or the answer offered; a packet that decodes has room for its terminator. -/
theorem stepRunsTheDecodedInstruction : Obligations.StepRunsTheDecodedInstruction := by
  intro s hlegal hrst
  refine ⟨fun r hphase hr => step_of_request hlegal hrst hphase hr, ?packet, ?full,
    fun hphase ha => step_of_answer hlegal hrst hphase ha, fun hphase ha => step_of_answer hlegal hrst hphase ha⟩
  case packet =>
    intro i hphase hwf ha hi
    obtain ⟨q, hq, -, hlen, rfl⟩ := decodeRx_inv hi
    have hstored : s.rlen ≤ s.rbuf.length := hwf.rlen_le.trans_eq hwf.rbuf_length.symm
    have hroom : s.rlen < s.cfg.maxLen := by
      have := congrArg List.length hq
      simp [hstored] at this
      omega
    have hpacket : rxPacket (storeByte term (answerTaken s)) = q ++ [term] :=
      (rxPacket_storeByte term (s := answerTaken s) (hwf.rbuf_length ▸ hroom)).trans hq
    rw [step_of_answer hlegal hrst hphase ha, ← hpacket]
    exact (onEvent_byte term (answerTaken s) hphase hroom).trans (if_pos rfl)
  case full =>
    intro b hphase hfull hb ha
    have hroom : s.rlen < s.cfg.maxLen := by omega
    rw [step_of_answer hlegal hrst hphase ha]
    exact (onEvent_byte b (answerTaken s) hphase hroom).trans ((if_neg hb).trans (if_pos hfull))

/-! ## Acknowledges (R151, R181, R183) -/

/-- The framing function takes an Acknowledge packet whole (R102, R138). -/
theorem frameFn_ack {maxLen : Nat} (hlen : 3 ≤ maxLen) {h : Byte} (hh : h ≠ term) (k : Nibble) (more : List RxAnswer)
    (f : Feed RxAnswer)
    (hf : f.once = .byte h :: .byte (joinNib 4#4 k) :: .byte term :: more) :
    frameFn maxLen [] f = some (.packet, [h, joinNib 4#4 k, term], { f with once := more }) := by
  obtain ⟨room, rfl⟩ : ∃ room, maxLen = room + 3 := ⟨maxLen - 3, by omega⟩
  have htype : joinNib 4#4 k ≠ term := joinNib_ne_term 4#4 k (by decide)
  simp [frameFn, Feed.head?, Feed.rest, hf, hh, htype]

/-- In a looping mode the three steps that read an Acknowledge start the next packet. -/
theorem run_ack {s : State} (hs : PacketStart s) (hmode : s.mode ≠ .recv) {h : Byte} (hh : h ≠ term) {k : Nibble}
    {more : List RxAnswer} (hstream : s.rxStream.once = .byte h :: .byte (joinNib 4#4 k) :: .byte term :: more) :
    ∃ t, Host.Core.run Sys2Proof.core 3 s = .next t ∧ GoesOn s [] { s.rxStream with once := more } t := by
  have hframe := frameFn_ack hs.legal hh k more s.rxStream hstream
  let u := framed .packet [h, joinNib 4#4 k, term] { s.rxStream with once := more } s
  have hexec : exec (frameInstr .packet [h, joinNib 4#4 k, term]) u =
      .next (startFrame (latch .ack codeAcknowledge u)) := by
    rw [frameInstr, classify_ack]
    exact exec_ack_absorbed (s := u) hmode h k
  have hpushed : u.outputs.filter Output.isPush = s.outputs.filter Output.isPush ++ [] := by
    rw [List.append_nil]
    exact framed_pushes _ _ _ s
  have hreturns (n : Nat) (hn : s.handlerReturns.enough (0 + n)) : s.handlerReturns.enough n := by simpa using hn
  exact ⟨_, (hs.run_frame hframe).trans hexec,
    goesOn_startFrame hs hframe .ack codeAcknowledge .rxw hpushed hreturns⟩

/-- The answers of the stream that are these Acknowledge packets, one after another. -/
def ackAnswers (acks : List (Byte × Nibble)) : List RxAnswer :=
  acks.flatMap fun a => [.byte a.1, .byte (joinNib 4#4 a.2), .byte term]

/-- So do the steps that read any number of them. -/
theorem run_acks {s : State} (hs : PacketStart s) (hmode : s.mode ≠ .recv) {acks : List (Byte × Nibble)}
    (hacks : ∀ a ∈ acks, a.1 ≠ term) {more : List RxAnswer}
    (hstream : s.rxStream.once = ackAnswers acks ++ more) :
    ∃ t, Host.Core.run Sys2Proof.core (3 * acks.length) s = .next t ∧ PacketStart t ∧ t.mode = s.mode ∧
      t.rxStream = { s.rxStream with once := more } ∧ t.camcnt = s.camcnt ∧ t.tbuf = s.tbuf ∧ t.val0 = s.val0 ∧
      t.val1 = s.val1 := by
  induction acks generalizing s with
  | nil => exact ⟨s, run_zero s, hs, rfl, by rw [← (show _ = more from hstream)], rfl, rfl, rfl, rfl⟩
  | cons a acks ih =>
    obtain ⟨t, hfirst, hgoes⟩ :=
      run_ack (more := ackAnswers acks ++ more) hs hmode (hacks a List.mem_cons_self) hstream
    obtain ⟨u, hrun, hstart, humode, hleft, hcamcnt, htbuf, hval0, hval1⟩ :=
      ih hgoes.start (hgoes.mode ▸ hmode) (fun b hb => hacks b (List.mem_cons_of_mem a hb)) (by rw [hgoes.stream])
    refine ⟨u, ?_, hstart, humode.trans hgoes.mode, ?_, hcamcnt.trans hgoes.camcnt, htbuf.trans hgoes.tbuf,
      hval0.trans hgoes.val0, hval1.trans hgoes.val1⟩
    · rw [List.length_cons, Nat.mul_succ, Nat.add_comm, run_add _ hfirst, hrun]
    · rw [hleft, hgoes.stream]

/-- Settles O44: the block is at the start of a packet after them. -/
theorem acknowledgesNeverEndTheHandshake : Obligations.AcknowledgesNeverEndTheHandshake := by
  intro s acks rest hlegal hbuffers hphase hrlen hrst hmode hacks hstream
  obtain ⟨t, hrun, hstart, htmode, hleft, hkept⟩ := run_acks ⟨hlegal, hbuffers, hphase, hrlen, hrst⟩ hmode hacks hstream
  exact ⟨t, hrun, hstart.reading, hstart.empty, htmode, hleft, hkept⟩

end Sys2Proof.Proofs
end
